-- ==== Sys2Proof/Word.lean ====
section
/-! DEFINITION. The two widths of the hardware (spec/00_scope.md R5, R7): an 8-bit byte and a 16-bit word.
Arithmetic on them is BitVec's own, which wraps mod 256 and mod 65536 (R169). -/

namespace Sys2Proof

/-- A `Byte` of R7: 0 to 255. -/
abbrev Byte := BitVec 8

/-- A `Word` of R7: 0 to 65,535. -/
abbrev Word := BitVec 16

end Sys2Proof
end

