-- ==== Sys2Proof/Machine/Bits.lean ====
section
/-! DEFINITION. The bit-field, byte-order and extension helpers of spec/00_scope.md R7 and R8. -/

namespace Sys2Proof

/-- `w[15:8]` (R7). -/
def hiByte (w : Word) : Byte := w.extractLsb' 8 8

/-- `w[7:0]` (R7). -/
def loByte (w : Word) : Byte := w.extractLsb' 0 8

/-- `{h, l}` (R7): h the more significant byte. -/
def cat (h l : Byte) : Word := h ++ l

/-- `sext_16` (R8), used by the relative-jump offset and by nothing else. -/
def sext16 (b : Byte) : Word := b.signExtend 16

/-- `zext_16` (R8). -/
def zext16 (b : Byte) : Word := b.zeroExtend 16

/-- The byte with bit `b` set and every other bit clear: `1 << b` (R7). -/
def bitMask (b : BitVec 3) : Byte := (1 : Byte) <<< b.toNat

/-- A flag as the number 0 or 1 in a byte (R7: "A `Bit` is 0 or 1, also read as false or true"). -/
def bitByte (b : Bool) : Byte := if b then 1 else 0

end Sys2Proof
end

