-- ==== Sys2Proof/Config.lean ====
section
/-! DEFINITION. What a session fixes (spec/00_scope.md R5) and the values the spec leaves free.

The fixed parameters of R5 are constants here. Its OPEN parameters (`SENTINEL`, `IoMap`, `SCANLINE_VALUE`) are
the fields of `Params`: the step function takes them from the state, where no instruction and no host action changes
them, so that a statement over all states is a statement over every value of them (notes/assumptions/1.md).
`RESET_REGS` is an argument of `State.powerOn` (Machine/State.lean).
The free values are `opaque`: nothing can be proved about what they are. -/

namespace Sys2Proof.Config

/-- `MEM_SIZE`: 65,536 bytes (R5, R50). -/
def memSize : Nat := 0x10000

/-- `IO_BASE`, the first address of the memory-mapped I/O window (R5, R51). -/
def ioBase : Nat := 0xFF00

/-- `IO_LAST`, the last address of the window (R5, R51). -/
def ioLast : Nat := 0xFF7F

/-- `HIGH_PAGE_BASE` (R5, R68). -/
def highPageBase : Word := 0xFF00

/-- The highest address an instruction can start at (spec/70_reset_and_hazards.md R303). -/
def lastFetch : Nat := 0xFFFD

/-- The port classes of spec/20_memory.md R58. `special p` is the documented single-purpose port number `p`, whose
behaviour the spec leaves to the instantiation of `IoMap` (spec/93_implementation_defined.md U11). -/
inductive PortClass where
  | sound
  | stored
  | scanLine
  | special (p : Nat)
  | notBuilt
  | undocumented
  deriving DecidableEq, Repr

/-- The OPEN parameters of R5 that a session fixes. -/
structure Params where
  /-- `SENTINEL`, the byte that fills unconfigured memory. -/
  sentinel : Byte
  /-- `SCANLINE_VALUE`, what a read of the scan-line port returns. -/
  scanline : Byte
  /-- `IoMap`, as the list of the addresses that are not `Undocumented`; the first entry for an address decides, and
  an address with no entry is `Undocumented`. Every total function of R58 on the 128 addresses has such a list. -/
  ports : List (Nat × PortClass)
  deriving DecidableEq, Repr

/-- `RESET_REGS` of R5 without F, whose four stored bits are an argument of their own: the registers after power-on. -/
structure ResetRegs where
  a : Byte
  b : Byte
  c : Byte
  d : Byte
  e : Byte
  h : Byte
  l : Byte
  sp : Word
  deriving DecidableEq, Repr

/-- `draw Bit` (R9): the n-th bit the source does not fix. RLC and RL draw Z, N and Hf (spec/45_prefixed_cb.md R212,
R213; spec/93_implementation_defined.md U18). Free value, notes/assumptions/5.md. -/
opaque drawBit : Nat → Bool

/-- `p.read(MEM)` of spec/20_memory.md R52 for the single-purpose port `p`, MEM given by its sentinel and its listed cells.
Free value, notes/assumptions/4.md. -/
opaque specialRead : Nat → Byte → List Host.Cell → Byte

/-- `p.write(MEM, v)` of R53 for the single-purpose port `p`: the cells of the new MEM that do not hold the sentinel.
Free value, notes/assumptions/4.md. -/
opaque specialWrite : Nat → Byte → List Host.Cell → Byte → List Host.Cell

end Sys2Proof.Config
end

