-- ==== Sys2Proof/Machine/State.lean ====
section
/-! DEFINITION. The whole state of one session (spec/10_state.md R20), the five fatal errors (spec/60_exceptions.md R260),
power-on (spec/70_reset_and_hazards.md R290) and the state after reset. -/

namespace Sys2Proof.Machine

open Sys2Proof.Config (Params ResetRegs)

/-- The four stored bits of F (R28). F's bits 3:0 are no storage: `Flags.toByte` and `Flags.ofByte` (Machine/Flags.lean)
are the byte view, which reads them as 0 and discards a write to them. -/
structure Flags where
  /-- Zero, F[7]. -/
  z : Bool
  /-- Subtract, F[6]. -/
  n : Bool
  /-- HalfCarry, F[5]; the spec's `Hf`. -/
  h : Bool
  /-- Carry, F[4]; the spec's `Cy`. -/
  c : Bool
  deriving DecidableEq, Repr

/-- The state of the Execution Loop (R34). -/
inductive RunState where
  | running
  | stopped
  deriving DecidableEq, Repr

/-- Whether an access reads or writes; recorded by `UndocumentedPort` (R260, R264). -/
inductive Access where
  | read
  | write
  deriving DecidableEq, Repr

/-- What an `Unimplemented` error names (R261): the opcode, the sub-opcode after 0xCB, or the port. -/
inductive Unbuilt where
  | opcode (op : Byte)
  | sub (sub : Byte)
  | port (addr : Nat)
  deriving DecidableEq, Repr

/-- The five fatal errors of R260 with the information each records; `pc` is the PC of the failing instruction (R269).
All are the hardware's own: the machine stops for good (R266, R270), so each is safe. -/
inductive Fault where
  /-- Error 1, `Unimplemented` (R261): raised by the meanings of the unimplemented rows, by every access to a `NotBuilt`
  port and by a write to the `ScanLine` port. Safe. -/
  | unimplemented (what : Unbuilt) (pc : Word)
  /-- Error 2, `InvalidOpcode` (R262): raised by the fetch of a `SENTINEL` opcode byte. Safe. -/
  | invalidOpcode (pc : Word)
  /-- Error 3, `InvariantViolation` (R263): raised at the start of a step whose PC the previous step left unchanged. Safe. -/
  | invariantViolation (pc : Word)
  /-- Error 4, `UndocumentedPort` (R264): raised by every access to an `Undocumented` port. Safe. -/
  | undocumentedPort (addr : Nat) (access : Access) (pc : Word)
  /-- Error 5, `ConfigurationError` (R265): raised by a step at a PC above 0xFFFD, by the second byte of a push or pop at
  address 0x10000, and by an injection that does not fit. Safe. -/
  | configurationError (addr : Nat) (pc : Word)
  deriving DecidableEq, Repr

/-- What the model refuses. No step of this machine is ever refused. -/
inductive Refusal where
  /-- Raised by an arm of `exec` for an instruction with no meaning; there is none. Safe. -/
  | notModelled (mnemonic : String)
  /-- Raised by an injection or a Run call made while a Run call is executing, which the host may not do (R287, R296,
  R299). Safe. -/
  | hostDuringRun
  deriving DecidableEq, Repr

/-- The Address Space (spec/20_memory.md R50): the cells that do not hold `SENTINEL`, as address and byte, addresses rising.
An address with no entry reads as `SENTINEL` (R290: every byte at power-on). Machine/Memory.lean reads and writes it. -/
abbrev Memory := List Host.Cell

/-- The state of R20, the session's parameters (R5, R36) and the draw counter of the model. -/
@[ext]
structure State where
  /-- A, the accumulator (R21). -/
  a : Byte
  /-- B (R21). -/
  b : Byte
  /-- C (R21). -/
  c : Byte
  /-- D (R21). -/
  d : Byte
  /-- E (R21). -/
  e : Byte
  /-- H (R21). -/
  h : Byte
  /-- L (R21). -/
  l : Byte
  /-- F, the flag slot (R28). -/
  flags : Flags
  /-- SP (R33). -/
  sp : Word
  /-- PC (R31). -/
  pc : Word
  /-- IME (R30): written by DI, EI and RETI and read by nothing but the inspection interface. -/
  ime : Bool
  /-- MEM (spec/20_memory.md R50). -/
  mem : Memory
  /-- `run` (R34). -/
  run : RunState
  /-- `fault` (R34): the latched fatal error, never cleared (spec/60_exceptions.md R270). -/
  fault : Option Fault
  /-- `prev_pc` (R35). -/
  prevPc : Option Word
  /-- The model's own: how many bits have been drawn (R9 `draw Bit`; notes/assumptions/5.md). -/
  draws : Nat
  /-- The session's OPEN parameters (R5): written by nothing, an argument of the step (R36; notes/assumptions/1.md). -/
  par : Params
  deriving DecidableEq, Repr

/-- What a step, a meaning or an injection answers. -/
abbrev Answer := Host.Outcome State Fault Refusal

/-- Power-on, the creation of a session (R290), for every value of the OPEN parameters of R5. -/
def State.powerOn (p : Params) (r : ResetRegs) (f : Flags) : State where
  a := r.a
  b := r.b
  c := r.c
  d := r.d
  e := r.e
  h := r.h
  l := r.l
  flags := f
  sp := r.sp
  pc := 0x0000
  ime := false
  mem := []
  run := .stopped
  fault := none
  prevPc := none
  draws := 0
  par := p

/-- The parameters of the one session `State.reset` starts. DESIGN CHOICE, notes/assumptions/1.md: `SENTINEL` 0xDD and
`SCANLINE_VALUE` 0x90 as in spec/95_test_vectors.md section 0, and the safe `IoMap` of R58, every port `Undocumented`. -/
def State.resetParams : Params where
  sentinel := 0xDD
  scanline := 0x90
  ports := []

/-- The registers of `State.reset`. DESIGN CHOICE, notes/assumptions/2.md: zero, which the spec leaves OPEN. -/
def State.resetRegs : ResetRegs := ⟨0, 0, 0, 0, 0, 0, 0, 0⟩

/-- The machine right after power-on (R290, R39). -/
def State.reset : State :=
  State.powerOn State.resetParams State.resetRegs ⟨false, false, false, false⟩

end Sys2Proof.Machine
end

