-- ==== Sys2Proof/Machine/Flags.lean ====
section
/-! DEFINITION. The flag slot's byte view (spec/10_state.md R28), every flag law of the spec, and the conditions. -/

namespace Sys2Proof.Machine

/-- F as a byte: `Z*128 + N*64 + Hf*32 + Cy*16` (R28); bits 3:0 read 0. -/
def Flags.toByte (f : Flags) : Byte :=
  bitByte f.z <<< 7 ||| bitByte f.n <<< 6 ||| bitByte f.h <<< 5 ||| bitByte f.c <<< 4

/-- A write of a byte through F: bits 3:0 are discarded (R24, R28). -/
def Flags.ofByte (v : Byte) : Flags :=
  ⟨v.getLsbD 7, v.getLsbD 6, v.getLsbD 5, v.getLsbD 4⟩

/-- `IncFlags(r)` (spec/41_incdec.md R147): Carry unchanged. -/
def Flags.afterInc (f : Flags) (r : Byte) : Flags :=
  ⟨r == 0, false, r &&& 0x0F == 0, f.c⟩

/-- `DecFlags(r)` (R148): Carry unchanged. -/
def Flags.afterDec (f : Flags) (r : Byte) : Flags :=
  ⟨r == 0, true, r &&& 0x0F == 0x0F, f.c⟩

/-- `AddFlags(a, r)` (spec/42_alu.md R156): unsigned comparisons of the wrapped result with the old accumulator. -/
def Flags.add (a r : Byte) : Flags :=
  ⟨r == 0, false, decide (r &&& 0x0F < a &&& 0x0F), decide (r < a)⟩

/-- `SubFlags(a, r)` (R157). -/
def Flags.sub (a r : Byte) : Flags :=
  ⟨r == 0, true, decide (r &&& 0x0F > a &&& 0x0F), decide (r > a)⟩

/-- `AndFlags(r)` (R158). -/
def Flags.and (r : Byte) : Flags := ⟨r == 0, false, true, false⟩

/-- `LogicFlags(r)` (R159), for XOR and OR. -/
def Flags.logic (r : Byte) : Flags := ⟨r == 0, false, false, false⟩

/-- The flags after RLC and RL (spec/45_prefixed_cb.md R212, R213): Carry is the operand's old bit 7; Z, N and Hf are
three draws, the bits numbered `k`, `k + 1` and `k + 2` of the free sequence (notes/assumptions/5.md). -/
def Flags.rotate (k : Nat) (v : Byte) : Flags :=
  ⟨Config.drawBit k, Config.drawBit (k + 1), Config.drawBit (k + 2), v.getLsbD 7⟩

/-- The flags after BIT 7,H (R214): Carry unchanged. -/
def Flags.bitTest (f : Flags) (v : Byte) : Flags := ⟨!v.getLsbD 7, false, true, f.c⟩

/-- `Cond(NZ)`: Z == 0 (spec/30_encoding.md R96, spec/43_stack_call_return.md R181). -/
def Flags.condNz (f : Flags) : Bool := !f.z

/-- `Cond(Z)`: Z == 1 (R96). -/
def Flags.condZ (f : Flags) : Bool := f.z

/-- `Cond(NC)`: Cy == 0 (R96). -/
def Flags.condNc (f : Flags) : Bool := !f.c

/-- `Cond(C)`: Cy == 1 (R96). -/
def Flags.condC (f : Flags) : Bool := f.c

end Sys2Proof.Machine
end

