-- ==== Sys2Proof/Machine/Memory.lean ====
section
/-! DEFINITION. The list of cells behind MEM (spec/20_memory.md R50): one canonical form, its read and its write.
`fill` is what an unlisted address reads as; the machine passes `SENTINEL` (R290, R296). -/

namespace Sys2Proof.Machine

/-- The byte at an address: its entry, or `fill`. -/
def Memory.read (fill : Byte) : Memory → Nat → Byte
  | [], _ => fill
  | (k, v) :: m, addr => if k = addr then v else Memory.read fill m addr

/-- Put an entry at its place in the rising order of the addresses. -/
def Memory.place (addr : Nat) (v : Byte) : Memory → Memory
  | [] => [(addr, v)]
  | (k, w) :: m => if addr < k then (addr, v) :: (k, w) :: m else (k, w) :: Memory.place addr v m

/-- Store a byte: the old entry goes, and a byte other than `fill` gets a new one. -/
def Memory.write (fill : Byte) (m : Memory) (addr : Nat) (v : Byte) : Memory :=
  let rest := m.filter (fun c => c.1 != addr)
  if v = fill then rest else Memory.place addr v rest

/-- The memory that a list of cells describes over all-`fill` memory: later cells win, and a cell outside the 65,536
addresses is dropped. -/
def Memory.ofCells (fill : Byte) (cells : List Host.Cell) : Memory :=
  cells.foldl (fun m c => if c.1 < Config.memSize then Memory.write fill m c.1 c.2 else m) []

/-- The memory that holds the bytes of an image from `base` upward and `fill` everywhere else (R296). -/
def Memory.ofImage (fill : Byte) : Nat → List Byte → Memory
  | _, [] => []
  | base, v :: rest =>
    if v = fill then Memory.ofImage fill (base + 1) rest
    else (base, v) :: Memory.ofImage fill (base + 1) rest

/-- The canonical form: addresses strictly rising, all of them addresses of MEM, and no entry equal to `fill`. -/
abbrev Memory.wf (fill : Byte) (m : Memory) : Prop :=
  m.Pairwise (fun c c' => c.1 < c'.1) ∧ ∀ c ∈ m, c.2 ≠ fill ∧ c.1 < Config.memSize

end Sys2Proof.Machine
end

