-- ==== Sys2Proof/Machine/Ops.lean ====
section
/-! DEFINITION. The named operations over memory and registers that the meanings share: the byte accesses of
spec/20_memory.md, the pair views of spec/10_state.md, the stack primitives of spec/43_stack_call_return.md, the
advance of PC, and raising a fatal error.

Raising one is this hardware's only exception (spec/60_exceptions.md): nothing is saved, no register is copied and no handler
is entered (R266), and there is no return from it (R270); `State.latch` is what it leaves. -/

namespace Sys2Proof.Machine

open Sys2Proof.Config (PortClass Params)

/-! ## Fatal errors -/

/-- R266 for a raised error E: `fault <- E`, `run <- Stopped`, and nothing else changes. -/
def State.latch (s : State) (e : Fault) : State := { s with fault := some e, run := .stopped }

/-- The code of an error (R260). -/
def Fault.code : Fault → Nat
  | .unimplemented _ _ => 1
  | .invalidOpcode _ => 2
  | .invariantViolation _ => 3
  | .undocumentedPort _ _ _ => 4
  | .configurationError _ _ => 5

/-! ## Raw cells -/

/-- `MEM[addr]`, the stored byte, whatever the class of the address (R286). -/
def State.peek (s : State) (addr : Nat) : Byte := Memory.read s.par.sentinel s.mem addr

/-- `MEM[addr] <- v`. -/
def State.poke (s : State) (addr : Nat) (v : Byte) : State :=
  { s with mem := Memory.write s.par.sentinel s.mem addr v }

/-! ## The I/O window -/

/-- Whether an address lies in the window 0xFF00 to 0xFF7F (R51). -/
abbrev inWindow (addr : Nat) : Prop := Config.ioBase ≤ addr ∧ addr ≤ Config.ioLast

/-- The first entry of a port list for an address. -/
def lookupPort : List (Nat × PortClass) → Nat → PortClass
  | [], _ => .undocumented
  | (k, cl) :: rest, addr => if k = addr then cl else lookupPort rest addr

/-- `IoMap(addr)` (R58), for an address of the window. -/
def portClass (p : Params) (addr : Nat) : PortClass := lookupPort p.ports addr

/-! ## The two accesses -/

/-- `MemRead(addr, 1)` (R52). A read changes no state (R60). -/
def State.memRead (s : State) (addr : Nat) : Except Fault Byte :=
  if Config.memSize ≤ addr then .error (.configurationError addr s.pc)
  else if ¬ inWindow addr then .ok (s.peek addr)
  else
    match portClass s.par addr with
    | .sound => .ok (s.peek addr)
    | .stored => .ok (s.peek addr)
    | .scanLine => .ok s.par.scanline
    | .special p => .ok (Config.specialRead p s.par.sentinel s.mem)
    | .notBuilt => .error (.unimplemented (.port addr) s.pc)
    | .undocumented => .error (.undocumentedPort addr .read s.pc)

/-- `MemWrite(addr, 1, v)` (R53). A write changes at most MEM. -/
def State.memWrite (s : State) (addr : Nat) (v : Byte) : Except Fault State :=
  if Config.memSize ≤ addr then .error (.configurationError addr s.pc)
  else if ¬ inWindow addr then .ok (s.poke addr v)
  else
    match portClass s.par addr with
    | .sound => .ok s
    | .stored => .ok (s.poke addr v)
    | .scanLine => .error (.unimplemented (.port addr) s.pc)
    | .special p =>
      .ok { s with mem := Memory.ofCells s.par.sentinel (Config.specialWrite p s.par.sentinel s.mem v) }
    | .notBuilt => .error (.unimplemented (.port addr) s.pc)
    | .undocumented => .error (.undocumentedPort addr .write s.pc)

/-! ## Pair views (spec/10_state.md R23, R24) -/

def State.bc (s : State) : Word := cat s.b s.c
def State.de (s : State) : Word := cat s.d s.e
def State.hl (s : State) : Word := cat s.h s.l
def State.af (s : State) : Word := cat s.a s.flags.toByte

def State.setBc (s : State) (w : Word) : State := { s with b := hiByte w, c := loByte w }
def State.setDe (s : State) (w : Word) : State := { s with d := hiByte w, e := loByte w }
def State.setHl (s : State) (w : Word) : State := { s with h := hiByte w, l := loByte w }

/-- `AF <- w`: F takes only its four defined bits (R24). -/
def State.setAf (s : State) (w : Word) : State := { s with a := hiByte w, flags := Flags.ofByte (loByte w) }

/-! ## PC (R32) -/

/-- `pc <- pc + n`, mod 65536. -/
def State.advance (s : State) (n : Word) : State := { s with pc := s.pc + n }

/-- `pc <- target`. -/
def State.jumpTo (s : State) (target : Word) : State := { s with pc := target }

/-! ## The stack primitives -/

/-- `Push16(w)` (R175): SP falls by 2 first, then the low byte is stored at SP and the high byte at SP + 1, which is not
wrapped (R54). -/
def State.push16 (s : State) (w : Word) : Except Fault State :=
  let s1 := { s with sp := s.sp - 2 }
  match s1.memWrite s1.sp.toNat (loByte w) with
  | .error e => .error e
  | .ok s2 => s2.memWrite (s1.sp.toNat + 1) (hiByte w)

/-- What `Push16(w)` has written when it stops in an error (R268): SP, and the low byte if its store succeeded. -/
def State.push16Left (s : State) (w : Word) : State :=
  let s1 := { s with sp := s.sp - 2 }
  match s1.memWrite s1.sp.toNat (loByte w) with
  | .error _ => s1
  | .ok s2 => s2

/-- The two reads of `Pop16()` (R176), low byte first; SP + 1 is not wrapped. -/
def State.top16 (s : State) : Except Fault Word :=
  match s.memRead s.sp.toNat with
  | .error e => .error e
  | .ok lo =>
    match s.memRead (s.sp.toNat + 1) with
    | .error e => .error e
    | .ok hi => .ok (cat hi lo)

/-- `SP <- (SP + 2) mod 65536`, the end of `Pop16()` (R176). -/
def State.dropTop (s : State) : State := { s with sp := s.sp + 2 }

/-! ## Raising `Unimplemented` for an encoding (spec/47_unimplemented.md R235) -/

/-- `raise Unimplemented(op)`: nothing is written and PC does not advance. -/
def raiseOpcode (op : Byte) (s : State) : Answer := .fault (.unimplemented (.opcode op) s.pc)

/-- `raise Unimplemented(0xCB, sub)` (spec/45_prefixed_cb.md R217). -/
def raiseSub (sub : Byte) (s : State) : Answer := .fault (.unimplemented (.sub sub) s.pc)

end Sys2Proof.Machine
end

