-- ==== Sys2Proof/Syntax.lean ====
section
/-! DEFINITION. The instructions: one constructor per row of spec/opcode_table.json, in the table's order, the rows of
status `unimplemented` included. The fields are the operands the row's encoding has. -/

namespace Sys2Proof

/-- The seven 8-bit general registers (spec/10_state.md R21). Index 6 of the operand index space is no register (R22). -/
inductive Reg8 where
  | b | c | d | e | h | l | a
  deriving DecidableEq, Repr

/-- An 8-bit operand of the 0 to 7 index space of R22: a register, or the byte HL addresses (index 6). -/
inductive Operand8 where
  | reg (r : Reg8)
  | hlInd
  deriving DecidableEq, Repr

/-- The 16-bit operand table `rp` of R26, rows 0 to 3. -/
inductive Pair where
  | bc | de | hl | sp
  deriving DecidableEq, Repr

/-- One constructor per row of the opcode table; each names its row's mnemonic in the spec and its rule. -/
inductive Instr where
  /-- NOP, R195 -/
  | nop
  /-- LD (a16),SP, R238 (unimplemented) -/
  | ldA16Sp (a : Word)
  /-- STOP, R237 (unimplemented) -/
  | stop
  /-- JR r8, R196 -/
  | jr (off : Byte)
  /-- JR NZ,r8, R197 -/
  | jrNz (off : Byte)
  /-- JR Z,r8, R198 -/
  | jrZ (off : Byte)
  /-- JR NC,r8, R199 -/
  | jrNc (off : Byte)
  /-- JR C,r8, R200 -/
  | jrC (off : Byte)
  /-- LD rr,d16, R124 -/
  | ldRrD16 (p : Pair) (w : Word)
  /-- ADD HL,rr, R239 (unimplemented) -/
  | addHlRr (p : Pair)
  /-- LD (BC),A, R125 -/
  | ldBcA
  /-- LD (DE),A, R126 -/
  | ldDeA
  /-- LD (HL+),A, R127 -/
  | ldHlIncA
  /-- LD (HL-),A, R128 -/
  | ldHlDecA
  /-- LD A,(BC), R129 -/
  | ldABc
  /-- LD A,(DE), R130 -/
  | ldADe
  /-- LD A,(HL+), R131 -/
  | ldAHlInc
  /-- LD A,(HL-), R132 -/
  | ldAHlDec
  /-- INC rr, R145 -/
  | incRr (p : Pair)
  /-- DEC rr, R146 -/
  | decRr (p : Pair)
  /-- INC r, R149 -/
  | incR (rd : Reg8)
  /-- INC (HL), R151 -/
  | incHl
  /-- DEC r, R150 -/
  | decR (rd : Reg8)
  /-- DEC (HL), R152 -/
  | decHl
  /-- LD r,d8, R133 -/
  | ldRD8 (rd : Reg8) (n : Byte)
  /-- LD (HL),d8, R134 -/
  | ldHlD8 (n : Byte)
  /-- (family 7), R240 (unimplemented) -/
  | family7 (y : BitVec 3)
  /-- HALT, R236 (unimplemented) -/
  | halt
  /-- LD r,(HL), R122 -/
  | ldRHl (rd : Reg8)
  /-- LD (HL),r, R123 -/
  | ldHlR (rs : Reg8)
  /-- LD r,r', R121 -/
  | ldRR (rd rs : Reg8)
  /-- ADD A,r, R160 -/
  | addAR (src : Operand8)
  /-- ADC A,r, R161 -/
  | adcAR (src : Operand8)
  /-- SUB r, R162 -/
  | subR (src : Operand8)
  /-- SBC A,r, R163 -/
  | sbcAR (src : Operand8)
  /-- AND r, R164 -/
  | andR (src : Operand8)
  /-- XOR r, R165 -/
  | xorR (src : Operand8)
  /-- OR r, R166 -/
  | orR (src : Operand8)
  /-- CP r, R167 -/
  | cpR (src : Operand8)
  /-- RET NZ, R241 (unimplemented) -/
  | retNz
  /-- POP BC, R178 -/
  | popBc
  /-- JP NZ,a16, R242 (unimplemented) -/
  | jpNz (a : Word)
  /-- JP a16, R201 -/
  | jp (a : Word)
  /-- CALL NZ,a16, R182 -/
  | callNz (a : Word)
  /-- PUSH BC, R177 -/
  | pushBc
  /-- ADD A,d8, R243 (unimplemented) -/
  | addAD8 (n : Byte)
  /-- RST 0x00, R244 (unimplemented) -/
  | rst00
  /-- RET Z, R241 (unimplemented) -/
  | retZ
  /-- RET, R186 -/
  | ret
  /-- JP Z,a16, R242 (unimplemented) -/
  | jpZ (a : Word)
  /-- CALL Z,a16, R183 -/
  | callZ (a : Word)
  /-- CALL a16, R180 -/
  | call (a : Word)
  /-- ADC A,d8, R243 (unimplemented) -/
  | adcAD8 (n : Byte)
  /-- RST 0x08, R244 (unimplemented) -/
  | rst08
  /-- RET NC, R241 (unimplemented) -/
  | retNc
  /-- POP DE, R178 -/
  | popDe
  /-- JP NC,a16, R242 (unimplemented) -/
  | jpNc (a : Word)
  /-- (undefined 0xD3), R246 (unimplemented) -/
  | undefD3
  /-- CALL NC,a16, R184 -/
  | callNc (a : Word)
  /-- PUSH DE, R177 -/
  | pushDe
  /-- SUB d8, R243 (unimplemented) -/
  | subD8 (n : Byte)
  /-- RST 0x10, R244 (unimplemented) -/
  | rst10
  /-- RET C, R241 (unimplemented) -/
  | retC
  /-- RETI, R187 -/
  | reti
  /-- JP C,a16, R242 (unimplemented) -/
  | jpC (a : Word)
  /-- (undefined 0xDB), R246 (unimplemented) -/
  | undefDB
  /-- CALL C,a16, R185 -/
  | callC (a : Word)
  /-- (undefined 0xDD), R246 (unimplemented) -/
  | undefDD
  /-- SBC A,d8, R243 (unimplemented) -/
  | sbcAD8 (n : Byte)
  /-- RST 0x18, R244 (unimplemented) -/
  | rst18
  /-- LDH (a8),A, R225 -/
  | ldhA8A (n : Byte)
  /-- POP HL, R178 -/
  | popHl
  /-- LD (C),A, R245 (unimplemented) -/
  | ldCA
  /-- (undefined 0xE3), R246 (unimplemented) -/
  | undefE3
  /-- (undefined 0xE4), R246 (unimplemented) -/
  | undefE4
  /-- PUSH HL, R177 -/
  | pushHl
  /-- AND d8, R243 (unimplemented) -/
  | andD8 (n : Byte)
  /-- RST 0x20, R244 (unimplemented) -/
  | rst20
  /-- ADD SP,r8, R245 (unimplemented) -/
  | addSpR8 (n : Byte)
  /-- JP (HL), R242 (unimplemented) -/
  | jpHl
  /-- LD (a16),A, R227 -/
  | ldA16A (a : Word)
  /-- (undefined 0xEB), R246 (unimplemented) -/
  | undefEB
  /-- (undefined 0xEC), R246 (unimplemented) -/
  | undefEC
  /-- (undefined 0xED), R246 (unimplemented) -/
  | undefED
  /-- XOR d8, R243 (unimplemented) -/
  | xorD8 (n : Byte)
  /-- RST 0x28, R244 (unimplemented) -/
  | rst28
  /-- LDH A,(a8), R226 -/
  | ldhAA8 (n : Byte)
  /-- POP AF, R179 -/
  | popAf
  /-- LD A,(C), R245 (unimplemented) -/
  | ldAC
  /-- DI, R229 -/
  | di
  /-- (undefined 0xF4), R246 (unimplemented) -/
  | undefF4
  /-- PUSH AF, R177 -/
  | pushAf
  /-- OR d8, R243 (unimplemented) -/
  | orD8 (n : Byte)
  /-- RST 0x30, R244 (unimplemented) -/
  | rst30
  /-- LD HL,SP+r8, R245 (unimplemented) -/
  | ldHlSpR8 (n : Byte)
  /-- LD SP,HL, R245 (unimplemented) -/
  | ldSpHl
  /-- LD A,(a16), R228 -/
  | ldAA16 (a : Word)
  /-- EI, R230 -/
  | ei
  /-- (undefined 0xFC), R246 (unimplemented) -/
  | undefFC
  /-- (undefined 0xFD), R246 (unimplemented) -/
  | undefFD
  /-- CP d8, R168 -/
  | cpD8 (n : Byte)
  /-- RST 0x38, R244 (unimplemented) -/
  | rst38
  /-- RLC r, R212 -/
  | rlcR (src : Operand8)
  /-- RRC r, R217 (unimplemented) -/
  | rrcR (src : Operand8)
  /-- RL r, R213 -/
  | rlR (src : Operand8)
  /-- RR r, R217 (unimplemented) -/
  | rrR (src : Operand8)
  /-- SLA r, R217 (unimplemented) -/
  | slaR (src : Operand8)
  /-- SRA r, R217 (unimplemented) -/
  | sraR (src : Operand8)
  /-- SWAP r, R217 (unimplemented) -/
  | swapR (src : Operand8)
  /-- SRL r, R217 (unimplemented) -/
  | srlR (src : Operand8)
  /-- BIT 7,H, R214 -/
  | bit7H
  /-- BIT b,r, R217 (unimplemented) -/
  | bitBR (b : BitVec 3) (src : Operand8)
  /-- RES b,r, R215 -/
  | resBR (b : BitVec 3) (src : Operand8)
  /-- SET b,r, R216 -/
  | setBR (b : BitVec 3) (src : Operand8)
  deriving DecidableEq, Repr

end Sys2Proof
end

