-- ==== Sys2Proof/Machine/Operands.lean ====
section
/-! DEFINITION. Every operand form: the registers `x[i]` (spec/00_scope.md R9), the operand accessor `Rd8`/`Wr8`
(spec/10_state.md R25), the 16-bit operand table `rp` (R26), and the read-modify-write of one operand. -/

namespace Sys2Proof.Machine

/-- `x[i]` (R9). -/
def State.reg (s : State) : Reg8 → Byte
  | .b => s.b
  | .c => s.c
  | .d => s.d
  | .e => s.e
  | .h => s.h
  | .l => s.l
  | .a => s.a

/-- `x[i] <- v` (R9). -/
def State.setReg (s : State) (r : Reg8) (v : Byte) : State :=
  match r with
  | .b => { s with b := v }
  | .c => { s with c := v }
  | .d => { s with d := v }
  | .e => { s with e := v }
  | .h => { s with h := v }
  | .l => { s with l := v }
  | .a => { s with a := v }

/-- `Rd8(i)` (R25): HL is read when the accessor runs. -/
def State.readOperand (s : State) : Operand8 → Except Fault Byte
  | .reg r => .ok (s.reg r)
  | .hlInd => s.memRead s.hl.toNat

/-- `Wr8(i, v)` (R25). -/
def State.writeOperand (s : State) (dst : Operand8) (v : Byte) : Except Fault State :=
  match dst with
  | .reg r => .ok (s.setReg r v)
  | .hlInd => s.memWrite s.hl.toNat v

/-- `rp[k]` (R26). -/
def State.pair (s : State) : Pair → Word
  | .bc => s.bc
  | .de => s.de
  | .hl => s.hl
  | .sp => s.sp

/-- `rp[k] <- w` (R26, R23). -/
def State.setPair (s : State) (p : Pair) (w : Word) : State :=
  match p with
  | .bc => s.setBc w
  | .de => s.setDe w
  | .hl => s.setHl w
  | .sp => { s with sp := w }

/-- One `Rd8`, then one `Wr8` of the changed byte at the same operand, then what the instruction does after the write,
given the old byte and the new (spec/41_incdec.md R151, spec/45_prefixed_cb.md R211). -/
def State.modify (s : State) (dst : Operand8) (f : Byte → Byte) (after : Byte → Byte → State → State) : Answer :=
  match s.readOperand dst with
  | .error e => .fault e
  | .ok v =>
    match s.writeOperand dst (f v) with
    | .error e => .fault e
    | .ok t => .next (after v (f v) t)

end Sys2Proof.Machine
end

