-- ==== Sys2Proof/Machine/Alu.lean ====
section
/-! DEFINITION. The meanings of spec/42_alu.md (R155 to R170): the ALU row and compare-immediate. -/

namespace Sys2Proof.Machine

/-- The shape of every ALU-row instruction (R155): read the operand, compute the 8-bit result from A, the operand and
Carry, write the flags from A and the result, and write A unless the instruction compares. -/
def aluRow (result : Byte → Byte → Bool → Byte) (flags : Byte → Byte → Flags) (writesA : Bool) (src : Operand8)
    (s : State) : Answer :=
  match s.readOperand src with
  | .error e => .fault e
  | .ok v =>
    let r := result s.a v s.flags.c
    .next ({ s with a := if writesA then r else s.a, flags := flags s.a r }.advance 1)

/-- ADD A,s (R160). -/
def execAddAR (src : Operand8) (s : State) : Answer := aluRow (fun a v _ => a + v) Flags.add true src s

/-- ADC A,s (R161): Carry is folded into the result, and the flag law does not see it. -/
def execAdcAR (src : Operand8) (s : State) : Answer := aluRow (fun a v c => a + v + bitByte c) Flags.add true src s

/-- SUB s (R162). -/
def execSubR (src : Operand8) (s : State) : Answer := aluRow (fun a v _ => a - v) Flags.sub true src s

/-- SBC A,s (R163). -/
def execSbcAR (src : Operand8) (s : State) : Answer := aluRow (fun a v c => a - v - bitByte c) Flags.sub true src s

/-- AND s (R164). -/
def execAndR (src : Operand8) (s : State) : Answer := aluRow (fun a v _ => a &&& v) (fun _ r => Flags.and r) true src s

/-- XOR s (R165). -/
def execXorR (src : Operand8) (s : State) : Answer := aluRow (fun a v _ => a ^^^ v) (fun _ r => Flags.logic r) true src s

/-- OR s (R166). -/
def execOrR (src : Operand8) (s : State) : Answer := aluRow (fun a v _ => a ||| v) (fun _ r => Flags.logic r) true src s

/-- CP s (R167): A is not written. -/
def execCpR (src : Operand8) (s : State) : Answer := aluRow (fun a v _ => a - v) Flags.sub false src s

/-- CP d8 (R168). -/
def execCpD8 (n : Byte) (s : State) : Answer := .next ({ s with flags := Flags.sub s.a (s.a - n) }.advance 2)

end Sys2Proof.Machine
end

