-- ==== Sys2Proof/Machine/IncDec.lean ====
section
/-! DEFINITION. The meanings of spec/41_incdec.md (R145 to R152): 16-bit and 8-bit increment and decrement. -/

namespace Sys2Proof.Machine

/-- INC rr (R145): no flag is written. -/
def execIncRr (p : Pair) (s : State) : Answer := .next ((s.setPair p (s.pair p + 1)).advance 1)

/-- DEC rr (R146). -/
def execDecRr (p : Pair) (s : State) : Answer := .next ((s.setPair p (s.pair p - 1)).advance 1)

/-- The increment of an 8-bit operand: read, add 1 mod 256, write back, then `IncFlags(r)` (R149, R151). -/
def incOperand (dst : Operand8) (s : State) : Answer :=
  s.modify dst (fun v => v + 1) (fun _ r t => { t with flags := t.flags.afterInc r }.advance 1)

/-- The decrement of an 8-bit operand: `DecFlags(r)` (R150, R152). -/
def decOperand (dst : Operand8) (s : State) : Answer :=
  s.modify dst (fun v => v - 1) (fun _ r t => { t with flags := t.flags.afterDec r }.advance 1)

/-- INC r (R149). -/
def execIncR (rd : Reg8) (s : State) : Answer := incOperand (.reg rd) s

/-- DEC r (R150). -/
def execDecR (rd : Reg8) (s : State) : Answer := decOperand (.reg rd) s

/-- INC (HL) (R151). -/
def execIncHl (s : State) : Answer := incOperand .hlInd s

/-- DEC (HL) (R152). -/
def execDecHl (s : State) : Answer := decOperand .hlInd s

end Sys2Proof.Machine
end

