-- ==== Sys2Proof/Machine/Jumps.lean ====
section
/-! DEFINITION. The meanings of spec/44_jumps.md (R195 to R202): NOP, the relative jumps, JP. -/

namespace Sys2Proof.Machine

/-- A relative jump, taken or not: the base is the address after the instruction, and the sum is reduced mod 65536
(R196, R202). -/
def relativeJump (cond : Bool) (off : Byte) (s : State) : Answer :=
  .next (if cond then s.jumpTo (s.pc + 2 + sext16 off) else s.advance 2)

/-- NOP (R195). -/
def execNop (s : State) : Answer := .next (s.advance 1)

/-- JR r8 (R196). -/
def execJr (off : Byte) (s : State) : Answer := relativeJump true off s

/-- JR NZ,r8 (R197). -/
def execJrNz (off : Byte) (s : State) : Answer := relativeJump s.flags.condNz off s

/-- JR Z,r8 (R198). -/
def execJrZ (off : Byte) (s : State) : Answer := relativeJump s.flags.condZ off s

/-- JR NC,r8 (R199). -/
def execJrNc (off : Byte) (s : State) : Answer := relativeJump s.flags.condNc off s

/-- JR C,r8 (R200). -/
def execJrC (off : Byte) (s : State) : Answer := relativeJump s.flags.condC off s

/-- JP a16 (R201). -/
def execJp (target : Word) (s : State) : Answer := .next (s.jumpTo target)

end Sys2Proof.Machine
end

