-- ==== Sys2Proof/Machine/Moves.lean ====
section
/-! DEFINITION. The meanings of spec/40_moves_and_loads.md (R120 to R134): 8-bit moves, the 16-bit immediate load, the
indexed loads and stores, the 8-bit immediate load. None of them writes a flag. -/

namespace Sys2Proof.Machine

/-! ## Shared shapes -/

/-- Store a byte, then what the instruction does after the transfer. -/
def storeByte (addr : Word) (v : Byte) (after : State → State) (s : State) : Answer :=
  match s.memWrite addr.toNat v with
  | .error e => .fault e
  | .ok t => .next (after t)

/-- Load a byte, then what the instruction does with it. -/
def loadByte (addr : Word) (after : Byte → State → State) (s : State) : Answer :=
  match s.memRead addr.toNat with
  | .error e => .fault e
  | .ok v => .next (after v s)

/-! ## 8-bit moves -/

/-- LD r,r' (R121). -/
def execLdRR (rd rs : Reg8) (s : State) : Answer := .next ((s.setReg rd (s.reg rs)).advance 1)

/-- LD r,(HL) (R122): the address is HL before the write. -/
def execLdRHl (rd : Reg8) (s : State) : Answer := loadByte s.hl (fun v t => (t.setReg rd v).advance 1) s

/-- LD (HL),r (R123). -/
def execLdHlR (rs : Reg8) (s : State) : Answer := storeByte s.hl (s.reg rs) (fun t => t.advance 1) s

/-! ## 16-bit immediate load -/

/-- LD rr,d16 (R124). -/
def execLdRrD16 (p : Pair) (w : Word) (s : State) : Answer := .next ((s.setPair p w).advance 3)

/-! ## Indexed store and load: HL changes after the transfer, mod 65536 -/

/-- LD (BC),A (R125). -/
def execLdBcA (s : State) : Answer := storeByte s.bc s.a (fun t => t.advance 1) s

/-- LD (DE),A (R126). -/
def execLdDeA (s : State) : Answer := storeByte s.de s.a (fun t => t.advance 1) s

/-- LD (HL+),A (R127). -/
def execLdHlIncA (s : State) : Answer := storeByte s.hl s.a (fun t => (t.setHl (t.hl + 1)).advance 1) s

/-- LD (HL-),A (R128). -/
def execLdHlDecA (s : State) : Answer := storeByte s.hl s.a (fun t => (t.setHl (t.hl - 1)).advance 1) s

/-- LD A,(BC) (R129). -/
def execLdABc (s : State) : Answer := loadByte s.bc (fun v t => (t.setReg .a v).advance 1) s

/-- LD A,(DE) (R130). -/
def execLdADe (s : State) : Answer := loadByte s.de (fun v t => (t.setReg .a v).advance 1) s

/-- LD A,(HL+) (R131). -/
def execLdAHlInc (s : State) : Answer :=
  loadByte s.hl (fun v t => ((t.setReg .a v).setHl (t.hl + 1)).advance 1) s

/-- LD A,(HL-) (R132). -/
def execLdAHlDec (s : State) : Answer :=
  loadByte s.hl (fun v t => ((t.setReg .a v).setHl (t.hl - 1)).advance 1) s

/-! ## 8-bit immediate load -/

/-- LD r,d8 (R133). -/
def execLdRD8 (rd : Reg8) (n : Byte) (s : State) : Answer := .next ((s.setReg rd n).advance 2)

/-- LD (HL),d8 (R134). -/
def execLdHlD8 (n : Byte) (s : State) : Answer := storeByte s.hl n (fun t => t.advance 2) s

end Sys2Proof.Machine
end

