-- ==== Sys2Proof/Machine/Misc.lean ====
section
/-! DEFINITION. The meanings of spec/46_misc_fixed.md (R225 to R230): the high page, the absolute loads, DI and EI. -/

namespace Sys2Proof.Machine

/-- The address of a high-page access, `0xFF00 + d8` (spec/20_memory.md R68). -/
def highPage (n : Byte) : Word := Config.highPageBase + zext16 n

/-- LDH (a8),A (R225). -/
def execLdhA8A (n : Byte) (s : State) : Answer := storeByte (highPage n) s.a (fun t => t.advance 2) s

/-- LDH A,(a8) (R226). -/
def execLdhAA8 (n : Byte) (s : State) : Answer := loadByte (highPage n) (fun v t => (t.setReg .a v).advance 2) s

/-- LD (a16),A (R227). -/
def execLdA16A (addr : Word) (s : State) : Answer := storeByte addr s.a (fun t => t.advance 3) s

/-- LD A,(a16) (R228). -/
def execLdAA16 (addr : Word) (s : State) : Answer := loadByte addr (fun v t => (t.setReg .a v).advance 3) s

/-- DI (R229): at once, with no consequence beyond IME. -/
def execDi (s : State) : Answer := .next ({ s with ime := false }.advance 1)

/-- EI (R230): at once. -/
def execEi (s : State) : Answer := .next ({ s with ime := true }.advance 1)

end Sys2Proof.Machine
end

