-- ==== Sys2Proof/Machine/Prefixed.lean ====
section
/-! DEFINITION. The meanings of spec/45_prefixed_cb.md (R210 to R216): the implemented rows of the 0xCB sub-table. Each is
2 bytes and one step (R210). -/

namespace Sys2Proof.Machine

/-- A rotate left of one operand: `low` is the bit that enters at bit 0, Carry takes the old bit 7, and Z, N and Hf are
drawn (R212, R213). -/
def rotateLeft (low : Byte → Bool) (dst : Operand8) (s : State) : Answer :=
  s.modify dst (fun v => v <<< 1 ||| bitByte (low v))
    (fun v _ t => { t with flags := Flags.rotate t.draws v, draws := t.draws + 3 }.advance 2)

/-- RLC s (R212): bit 7 goes round into bit 0. -/
def execRlcR (src : Operand8) (s : State) : Answer := rotateLeft (fun v => v.getLsbD 7) src s

/-- RL s (R213): the Carry flag before the instruction goes into bit 0. -/
def execRlR (src : Operand8) (s : State) : Answer := rotateLeft (fun _ => s.flags.c) src s

/-- BIT 7,H (R214). -/
def execBit7H (s : State) : Answer := .next ({ s with flags := s.flags.bitTest s.h }.advance 2)

/-- RES b,s (R215). -/
def execResBR (b : BitVec 3) (src : Operand8) (s : State) : Answer :=
  s.modify src (fun v => v &&& ~~~ bitMask b) (fun _ _ t => t.advance 2)

/-- SET b,s (R216). -/
def execSetBR (b : BitVec 3) (src : Operand8) (s : State) : Answer :=
  s.modify src (fun v => v ||| bitMask b) (fun _ _ t => t.advance 2)

end Sys2Proof.Machine
end

