-- ==== Sys2Proof/Machine/Stack.lean ====
section
/-! DEFINITION. The meanings of spec/43_stack_call_return.md (R175 to R188): PUSH, POP, CALL, RET, RETI. -/

namespace Sys2Proof.Machine

/-! ## Shared shapes -/

/-- Push a word, then move PC. -/
def pushThen (w : Word) (after : State → State) (s : State) : Answer :=
  match s.push16 w with
  | .error e => .fault e
  | .ok t => .next (after t)

/-- Pop a word: the two reads, the write of the destination, then SP rises by 2 (R176). -/
def popThen (dest : Word → State → State) (s : State) : Answer :=
  match s.top16 with
  | .error e => .fault e
  | .ok w => .next (dest w s).dropTop

/-- A taken call: the address of the next instruction is pushed, mod 65536 (R180). -/
def callTo (target : Word) (s : State) : Answer := pushThen (s.pc + 3) (fun t => t.jumpTo target) s

/-- A conditional call: taken, or a fall-through with no stack effect (R182). -/
def callIf (cond : Bool) (target : Word) (s : State) : Answer :=
  if cond then callTo target s else .next (s.advance 3)

/-! ## PUSH (R177) -/

/-- PUSH BC (R177). -/
def execPushBc (s : State) : Answer := pushThen s.bc (fun t => t.advance 1) s

/-- PUSH DE (R177). -/
def execPushDe (s : State) : Answer := pushThen s.de (fun t => t.advance 1) s

/-- PUSH HL (R177). -/
def execPushHl (s : State) : Answer := pushThen s.hl (fun t => t.advance 1) s

/-- PUSH AF (R177): F is the low byte. -/
def execPushAf (s : State) : Answer := pushThen s.af (fun t => t.advance 1) s

/-! ## POP (R178, R179) -/

/-- POP BC (R178). -/
def execPopBc (s : State) : Answer := popThen (fun w t => (t.setBc w).advance 1) s

/-- POP DE (R178). -/
def execPopDe (s : State) : Answer := popThen (fun w t => (t.setDe w).advance 1) s

/-- POP HL (R178). -/
def execPopHl (s : State) : Answer := popThen (fun w t => (t.setHl w).advance 1) s

/-- POP AF (R179): the flag byte is masked to its four bits. -/
def execPopAf (s : State) : Answer := popThen (fun w t => (t.setAf w).advance 1) s

/-! ## CALL (R180 to R185) -/

/-- CALL a16 (R180). -/
def execCall (target : Word) (s : State) : Answer := callTo target s

/-- CALL NZ,a16 (R182). -/
def execCallNz (target : Word) (s : State) : Answer := callIf s.flags.condNz target s

/-- CALL Z,a16 (R183). -/
def execCallZ (target : Word) (s : State) : Answer := callIf s.flags.condZ target s

/-- CALL NC,a16 (R184). -/
def execCallNc (target : Word) (s : State) : Answer := callIf s.flags.condNc target s

/-- CALL C,a16 (R185). -/
def execCallC (target : Word) (s : State) : Answer := callIf s.flags.condC target s

/-! ## RET and RETI -/

/-- RET (R186). -/
def execRet (s : State) : Answer := popThen (fun w t => t.jumpTo w) s

/-- RETI (R187): RET with IME set. -/
def execReti (s : State) : Answer := popThen (fun w t => { t with ime := true }.jumpTo w) s

end Sys2Proof.Machine
end

