-- ==== Sys2Proof/Decode.lean ====
section
/-! DEFINITION. The opcode classifier of spec/30_encoding.md (R80 to R101), the decoder over a fetch window, and, after it,
the encoder written from the same encodings.

The classifier is total: every first byte, and every sub-opcode after 0xCB, is a row of the opcode table (R98, R99).
The rows of status `unimplemented` decode to their own constructors, which reject by name when they run
(Machine/Unimplemented.lean). -/

namespace Sys2Proof

/-! ## Index tables -/

/-- The register index of spec/10_state.md R22. -/
def Reg8.code : Reg8 → BitVec 3
  | .b => 0
  | .c => 1
  | .d => 2
  | .e => 3
  | .h => 4
  | .l => 5
  | .a => 7

/-- The operand index of R22: 6 is the byte HL addresses. -/
def Operand8.code : Operand8 → BitVec 3
  | .reg r => r.code
  | .hlInd => 6

/-- The row of the table `rp` of R26. -/
def Pair.code : Pair → BitVec 2
  | .bc => 0
  | .de => 1
  | .hl => 2
  | .sp => 3

/-- R22, read the other way: the operand an index names. -/
def operandAt (i : BitVec 3) : Operand8 :=
  match i.toFin with
  | 0 => .reg .b
  | 1 => .reg .c
  | 2 => .reg .d
  | 3 => .reg .e
  | 4 => .reg .h
  | 5 => .reg .l
  | 6 => .hlInd
  | 7 => .reg .a

/-- R26, read the other way: the pair a row names. -/
def pairAt (k : BitVec 2) : Pair :=
  match k.toFin with
  | 0 => .bc
  | 1 => .de
  | 2 => .hl
  | 3 => .sp

/-! ## Fields of the opcode byte (R81) and of the sub-opcode byte (R82) -/

/-- `q`, op[7:6]. -/
def quadrantOf (op : Byte) : BitVec 2 := op.extractLsb' 6 2

/-- `fam` and `src`, op[2:0]; also the operand `s` of a sub-opcode. -/
def lowOf (op : Byte) : BitVec 3 := op.extractLsb' 0 3

/-- `row`, op[5:4]. -/
def rowOf (op : Byte) : BitVec 2 := op.extractLsb' 4 2

/-- `half`, op[3]: false is the left half, true the right half. -/
def halfOf (op : Byte) : Bool := op.getLsbD 3

/-- `dst`, op[5:3]; also the bit number `b` of a sub-opcode. -/
def midOf (op : Byte) : BitVec 3 := op.extractLsb' 3 3

/-! ## The classifier -/

/-- Family 0 of Quadrant 1, by op[5:3] (R87). -/
def classifyJumpMisc (y : BitVec 3) (b1 b2 : Byte) : Instr :=
  match y.toFin with
  | 0 => .nop
  | 1 => .ldA16Sp (cat b2 b1)
  | 2 => .stop
  | 3 => .jr b1
  | 4 => .jrNz b1
  | 5 => .jrZ b1
  | 6 => .jrNc b1
  | 7 => .jrC b1

/-- Family 2 of Quadrant 1: the row selects the address, the half the direction (R89). -/
def classifyIndexed (row : BitVec 2) (half : Bool) : Instr :=
  match row.toFin, half with
  | 0, false => .ldBcA
  | 1, false => .ldDeA
  | 2, false => .ldHlIncA
  | 3, false => .ldHlDecA
  | 0, true => .ldABc
  | 1, true => .ldADe
  | 2, true => .ldAHlInc
  | 3, true => .ldAHlDec

/-- Quadrant 1, 0x00 to 0x3F (R86 to R92). -/
def classifyQ1 (op b1 b2 : Byte) : Instr :=
  match (lowOf op).toFin with
  | 0 => classifyJumpMisc (midOf op) b1 b2
  | 1 => if halfOf op then .addHlRr (pairAt (rowOf op)) else .ldRrD16 (pairAt (rowOf op)) (cat b2 b1)
  | 2 => classifyIndexed (rowOf op) (halfOf op)
  | 3 => if halfOf op then .decRr (pairAt (rowOf op)) else .incRr (pairAt (rowOf op))
  | 4 =>
    match operandAt (midOf op) with
    | .reg rd => .incR rd
    | .hlInd => .incHl
  | 5 =>
    match operandAt (midOf op) with
    | .reg rd => .decR rd
    | .hlInd => .decHl
  | 6 =>
    match operandAt (midOf op) with
    | .reg rd => .ldRD8 rd b1
    | .hlInd => .ldHlD8 b1
  | 7 => .family7 (midOf op)

/-- Quadrant 2, moves, 0x40 to 0x7F: 0x76 is HALT and no move (R93). -/
def classifyMove (dst src : Operand8) : Instr :=
  match dst, src with
  | .reg rd, .reg rs => .ldRR rd rs
  | .reg rd, .hlInd => .ldRHl rd
  | .hlInd, .reg rs => .ldHlR rs
  | .hlInd, .hlInd => .halt

/-- Quadrant 2, the ALU block, 0x80 to 0xBF, by op[5:3] (R94). -/
def classifyAlu (y : BitVec 3) (src : Operand8) : Instr :=
  match y.toFin with
  | 0 => .addAR src
  | 1 => .adcAR src
  | 2 => .subR src
  | 3 => .sbcAR src
  | 4 => .andR src
  | 5 => .xorR src
  | 6 => .orR src
  | 7 => .cpR src

/-- Rows 0 to 7 of the prefixed sub-table, by sub[5:3] (R97). -/
def classifyRotate (y : BitVec 3) (src : Operand8) : Instr :=
  match y.toFin with
  | 0 => .rlcR src
  | 1 => .rrcR src
  | 2 => .rlR src
  | 3 => .rrR src
  | 4 => .slaR src
  | 5 => .sraR src
  | 6 => .swapR src
  | 7 => .srlR src

/-- Rows 8 to 15: the bit tests, of which BIT 7,H alone is built (R97, R214). -/
def classifyBitTest (b : BitVec 3) (src : Operand8) : Instr :=
  if b = 7 ∧ src = .reg .h then .bit7H else .bitBR b src

/-- The prefixed sub-table (R97): `sub` is the byte after 0xCB. -/
def classifyPrefixed (sub : Byte) : Instr :=
  match (quadrantOf sub).toFin with
  | 0 => classifyRotate (midOf sub) (operandAt (lowOf sub))
  | 1 => classifyBitTest (midOf sub) (operandAt (lowOf sub))
  | 2 => .resBR (midOf sub) (operandAt (lowOf sub))
  | 3 => .setBR (midOf sub) (operandAt (lowOf sub))

/-- The row Cx of the map of R98, by op[3] and op[2:0] (Quadrant 4: R95, and spec/47_unimplemented.md R241 to R246). -/
def classifyCx (half : Bool) (low : BitVec 3) (b1 b2 : Byte) : Instr :=
  match half, low.toFin with
  | false, 0 => .retNz
  | false, 1 => .popBc
  | false, 2 => .jpNz (cat b2 b1)
  | false, 3 => .jp (cat b2 b1)
  | false, 4 => .callNz (cat b2 b1)
  | false, 5 => .pushBc
  | false, 6 => .addAD8 b1
  | false, 7 => .rst00
  | true, 0 => .retZ
  | true, 1 => .ret
  | true, 2 => .jpZ (cat b2 b1)
  | true, 3 => classifyPrefixed b1
  | true, 4 => .callZ (cat b2 b1)
  | true, 5 => .call (cat b2 b1)
  | true, 6 => .adcAD8 b1
  | true, 7 => .rst08

/-- The row Dx of the map of R98, by op[3] and op[2:0] (Quadrant 4: R95, and spec/47_unimplemented.md R241 to R246). -/
def classifyDx (half : Bool) (low : BitVec 3) (b1 b2 : Byte) : Instr :=
  match half, low.toFin with
  | false, 0 => .retNc
  | false, 1 => .popDe
  | false, 2 => .jpNc (cat b2 b1)
  | false, 3 => .undefD3
  | false, 4 => .callNc (cat b2 b1)
  | false, 5 => .pushDe
  | false, 6 => .subD8 b1
  | false, 7 => .rst10
  | true, 0 => .retC
  | true, 1 => .reti
  | true, 2 => .jpC (cat b2 b1)
  | true, 3 => .undefDB
  | true, 4 => .callC (cat b2 b1)
  | true, 5 => .undefDD
  | true, 6 => .sbcAD8 b1
  | true, 7 => .rst18

/-- The row Ex of the map of R98, by op[3] and op[2:0] (Quadrant 4: R95, and spec/47_unimplemented.md R241 to R246). -/
def classifyEx (half : Bool) (low : BitVec 3) (b1 b2 : Byte) : Instr :=
  match half, low.toFin with
  | false, 0 => .ldhA8A b1
  | false, 1 => .popHl
  | false, 2 => .ldCA
  | false, 3 => .undefE3
  | false, 4 => .undefE4
  | false, 5 => .pushHl
  | false, 6 => .andD8 b1
  | false, 7 => .rst20
  | true, 0 => .addSpR8 b1
  | true, 1 => .jpHl
  | true, 2 => .ldA16A (cat b2 b1)
  | true, 3 => .undefEB
  | true, 4 => .undefEC
  | true, 5 => .undefED
  | true, 6 => .xorD8 b1
  | true, 7 => .rst28

/-- The row Fx of the map of R98, by op[3] and op[2:0] (Quadrant 4: R95, and spec/47_unimplemented.md R241 to R246). -/
def classifyFx (half : Bool) (low : BitVec 3) (b1 b2 : Byte) : Instr :=
  match half, low.toFin with
  | false, 0 => .ldhAA8 b1
  | false, 1 => .popAf
  | false, 2 => .ldAC
  | false, 3 => .di
  | false, 4 => .undefF4
  | false, 5 => .pushAf
  | false, 6 => .orD8 b1
  | false, 7 => .rst30
  | true, 0 => .ldHlSpR8 b1
  | true, 1 => .ldSpHl
  | true, 2 => .ldAA16 (cat b2 b1)
  | true, 3 => .ei
  | true, 4 => .undefFC
  | true, 5 => .undefFD
  | true, 6 => .cpD8 b1
  | true, 7 => .rst38

/-- Quadrant 4, 0xC0 to 0xFF, by op[5:4], op[3] and op[2:0] (R95). -/
def classifyQ4 (op b1 b2 : Byte) : Instr :=
  match (rowOf op).toFin with
  | 0 => classifyCx (halfOf op) (lowOf op) b1 b2
  | 1 => classifyDx (halfOf op) (lowOf op) b1 b2
  | 2 => classifyEx (halfOf op) (lowOf op) b1 b2
  | 3 => classifyFx (halfOf op) (lowOf op) b1 b2

/-- The classifier (R85): a pure function of the opcode and of the two trailing bytes the step has fetched (R303). -/
def classify (op b1 b2 : Byte) : Instr :=
  match (quadrantOf op).toFin with
  | 0 => classifyQ1 op b1 b2
  | 1 => classifyMove (operandAt (midOf op)) (operandAt (lowOf op))
  | 2 => classifyAlu (midOf op) (operandAt (lowOf op))
  | 3 => classifyQ4 op b1 b2

/-- Why a decoder gives no instruction. -/
inductive DecodeReject where
  /-- The window holds fewer than the three bytes the Executor is handed (R80, spec/70_reset_and_hazards.md R303). -/
  | shortWindow
  deriving DecidableEq, Repr

/-- The decoder, total on any bytes: it reads the three-byte window of R303 and rejects a shorter one by name. -/
def decode : List Byte → Except DecodeReject Instr
  | op :: b1 :: b2 :: _ => .ok (classify op b1 b2)
  | _ => .error .shortWindow

/-! ## Which rows are implemented -/

/-- `Unassigned` (spec/47_unimplemented.md R247): the 55 first bytes that select no implemented instruction. -/
def unassigned : List Byte :=
  [0x07, 0x08, 0x09, 0x0F, 0x10, 0x17, 0x19, 0x1F, 0x27, 0x29, 0x2F, 0x37, 0x39, 0x3F, 0x76] ++
  [0xC0, 0xC2, 0xC6, 0xC7, 0xC8, 0xCA, 0xCE, 0xCF] ++
  [0xD0, 0xD2, 0xD3, 0xD6, 0xD7, 0xD8, 0xDA, 0xDB, 0xDD, 0xDE, 0xDF] ++
  [0xE2, 0xE3, 0xE4, 0xE6, 0xE7, 0xE8, 0xE9, 0xEB, 0xEC, 0xED, 0xEE, 0xEF] ++
  [0xF2, 0xF4, 0xF6, 0xF7, 0xF8, 0xF9, 0xFC, 0xFD, 0xFF]

/-! ## The encoder -/

/-- The bytes of an instruction at ascending addresses (R80), each byte as the bit pattern the table gives it. -/
def encode : Instr → List Byte
  | .nop => [0b00000000#8]
  | .ldA16Sp a => [0b00001000#8, loByte a, hiByte a]
  | .stop => [0b00010000#8]
  | .jr off => [0b00011000#8, off]
  | .jrNz off => [0b00100000#8, off]
  | .jrZ off => [0b00101000#8, off]
  | .jrNc off => [0b00110000#8, off]
  | .jrC off => [0b00111000#8, off]
  | .ldRrD16 p w => [0b00#2 ++ p.code ++ 0b0001#4, loByte w, hiByte w]
  | .addHlRr p => [0b00#2 ++ p.code ++ 0b1001#4]
  | .ldBcA => [0b00000010#8]
  | .ldDeA => [0b00010010#8]
  | .ldHlIncA => [0b00100010#8]
  | .ldHlDecA => [0b00110010#8]
  | .ldABc => [0b00001010#8]
  | .ldADe => [0b00011010#8]
  | .ldAHlInc => [0b00101010#8]
  | .ldAHlDec => [0b00111010#8]
  | .incRr p => [0b00#2 ++ p.code ++ 0b0011#4]
  | .decRr p => [0b00#2 ++ p.code ++ 0b1011#4]
  | .incR rd => [0b00#2 ++ rd.code ++ 0b100#3]
  | .incHl => [0b00110100#8]
  | .decR rd => [0b00#2 ++ rd.code ++ 0b101#3]
  | .decHl => [0b00110101#8]
  | .ldRD8 rd n => [0b00#2 ++ rd.code ++ 0b110#3, n]
  | .ldHlD8 n => [0b00110110#8, n]
  | .family7 y => [0b00#2 ++ y ++ 0b111#3]
  | .halt => [0b01110110#8]
  | .ldRHl rd => [0b01#2 ++ rd.code ++ 0b110#3]
  | .ldHlR rs => [0b01110#5 ++ rs.code]
  | .ldRR rd rs => [0b01#2 ++ rd.code ++ rs.code]
  | .addAR src => [0b10000#5 ++ src.code]
  | .adcAR src => [0b10001#5 ++ src.code]
  | .subR src => [0b10010#5 ++ src.code]
  | .sbcAR src => [0b10011#5 ++ src.code]
  | .andR src => [0b10100#5 ++ src.code]
  | .xorR src => [0b10101#5 ++ src.code]
  | .orR src => [0b10110#5 ++ src.code]
  | .cpR src => [0b10111#5 ++ src.code]
  | .retNz => [0b11000000#8]
  | .popBc => [0b11000001#8]
  | .jpNz a => [0b11000010#8, loByte a, hiByte a]
  | .jp a => [0b11000011#8, loByte a, hiByte a]
  | .callNz a => [0b11000100#8, loByte a, hiByte a]
  | .pushBc => [0b11000101#8]
  | .addAD8 n => [0b11000110#8, n]
  | .rst00 => [0b11000111#8]
  | .retZ => [0b11001000#8]
  | .ret => [0b11001001#8]
  | .jpZ a => [0b11001010#8, loByte a, hiByte a]
  | .callZ a => [0b11001100#8, loByte a, hiByte a]
  | .call a => [0b11001101#8, loByte a, hiByte a]
  | .adcAD8 n => [0b11001110#8, n]
  | .rst08 => [0b11001111#8]
  | .retNc => [0b11010000#8]
  | .popDe => [0b11010001#8]
  | .jpNc a => [0b11010010#8, loByte a, hiByte a]
  | .undefD3 => [0b11010011#8]
  | .callNc a => [0b11010100#8, loByte a, hiByte a]
  | .pushDe => [0b11010101#8]
  | .subD8 n => [0b11010110#8, n]
  | .rst10 => [0b11010111#8]
  | .retC => [0b11011000#8]
  | .reti => [0b11011001#8]
  | .jpC a => [0b11011010#8, loByte a, hiByte a]
  | .undefDB => [0b11011011#8]
  | .callC a => [0b11011100#8, loByte a, hiByte a]
  | .undefDD => [0b11011101#8]
  | .sbcAD8 n => [0b11011110#8, n]
  | .rst18 => [0b11011111#8]
  | .ldhA8A n => [0b11100000#8, n]
  | .popHl => [0b11100001#8]
  | .ldCA => [0b11100010#8]
  | .undefE3 => [0b11100011#8]
  | .undefE4 => [0b11100100#8]
  | .pushHl => [0b11100101#8]
  | .andD8 n => [0b11100110#8, n]
  | .rst20 => [0b11100111#8]
  | .addSpR8 n => [0b11101000#8, n]
  | .jpHl => [0b11101001#8]
  | .ldA16A a => [0b11101010#8, loByte a, hiByte a]
  | .undefEB => [0b11101011#8]
  | .undefEC => [0b11101100#8]
  | .undefED => [0b11101101#8]
  | .xorD8 n => [0b11101110#8, n]
  | .rst28 => [0b11101111#8]
  | .ldhAA8 n => [0b11110000#8, n]
  | .popAf => [0b11110001#8]
  | .ldAC => [0b11110010#8]
  | .di => [0b11110011#8]
  | .undefF4 => [0b11110100#8]
  | .pushAf => [0b11110101#8]
  | .orD8 n => [0b11110110#8, n]
  | .rst30 => [0b11110111#8]
  | .ldHlSpR8 n => [0b11111000#8, n]
  | .ldSpHl => [0b11111001#8]
  | .ldAA16 a => [0b11111010#8, loByte a, hiByte a]
  | .ei => [0b11111011#8]
  | .undefFC => [0b11111100#8]
  | .undefFD => [0b11111101#8]
  | .cpD8 n => [0b11111110#8, n]
  | .rst38 => [0b11111111#8]
  | .rlcR src => [0b11001011#8, 0b00000#5 ++ src.code]
  | .rrcR src => [0b11001011#8, 0b00001#5 ++ src.code]
  | .rlR src => [0b11001011#8, 0b00010#5 ++ src.code]
  | .rrR src => [0b11001011#8, 0b00011#5 ++ src.code]
  | .slaR src => [0b11001011#8, 0b00100#5 ++ src.code]
  | .sraR src => [0b11001011#8, 0b00101#5 ++ src.code]
  | .swapR src => [0b11001011#8, 0b00110#5 ++ src.code]
  | .srlR src => [0b11001011#8, 0b00111#5 ++ src.code]
  | .bit7H => [0b11001011#8, 0b01111100#8]
  | .bitBR b src => [0b11001011#8, 0b01#2 ++ b ++ src.code]
  | .resBR b src => [0b11001011#8, 0b10#2 ++ b ++ src.code]
  | .setBR b src => [0b11001011#8, 0b11#2 ++ b ++ src.code]

/-- The length of an instruction in bytes (R84; for an unimplemented row, the table's `bytes`). -/
def Instr.size : Instr → Nat
  | .nop => 1
  | .ldA16Sp _ => 3
  | .stop => 1
  | .jr _ => 2
  | .jrNz _ => 2
  | .jrZ _ => 2
  | .jrNc _ => 2
  | .jrC _ => 2
  | .ldRrD16 _ _ => 3
  | .addHlRr _ => 1
  | .ldBcA => 1
  | .ldDeA => 1
  | .ldHlIncA => 1
  | .ldHlDecA => 1
  | .ldABc => 1
  | .ldADe => 1
  | .ldAHlInc => 1
  | .ldAHlDec => 1
  | .incRr _ => 1
  | .decRr _ => 1
  | .incR _ => 1
  | .incHl => 1
  | .decR _ => 1
  | .decHl => 1
  | .ldRD8 _ _ => 2
  | .ldHlD8 _ => 2
  | .family7 _ => 1
  | .halt => 1
  | .ldRHl _ => 1
  | .ldHlR _ => 1
  | .ldRR _ _ => 1
  | .addAR _ => 1
  | .adcAR _ => 1
  | .subR _ => 1
  | .sbcAR _ => 1
  | .andR _ => 1
  | .xorR _ => 1
  | .orR _ => 1
  | .cpR _ => 1
  | .retNz => 1
  | .popBc => 1
  | .jpNz _ => 3
  | .jp _ => 3
  | .callNz _ => 3
  | .pushBc => 1
  | .addAD8 _ => 2
  | .rst00 => 1
  | .retZ => 1
  | .ret => 1
  | .jpZ _ => 3
  | .callZ _ => 3
  | .call _ => 3
  | .adcAD8 _ => 2
  | .rst08 => 1
  | .retNc => 1
  | .popDe => 1
  | .jpNc _ => 3
  | .undefD3 => 1
  | .callNc _ => 3
  | .pushDe => 1
  | .subD8 _ => 2
  | .rst10 => 1
  | .retC => 1
  | .reti => 1
  | .jpC _ => 3
  | .undefDB => 1
  | .callC _ => 3
  | .undefDD => 1
  | .sbcAD8 _ => 2
  | .rst18 => 1
  | .ldhA8A _ => 2
  | .popHl => 1
  | .ldCA => 1
  | .undefE3 => 1
  | .undefE4 => 1
  | .pushHl => 1
  | .andD8 _ => 2
  | .rst20 => 1
  | .addSpR8 _ => 2
  | .jpHl => 1
  | .ldA16A _ => 3
  | .undefEB => 1
  | .undefEC => 1
  | .undefED => 1
  | .xorD8 _ => 2
  | .rst28 => 1
  | .ldhAA8 _ => 2
  | .popAf => 1
  | .ldAC => 1
  | .di => 1
  | .undefF4 => 1
  | .pushAf => 1
  | .orD8 _ => 2
  | .rst30 => 1
  | .ldHlSpR8 _ => 2
  | .ldSpHl => 1
  | .ldAA16 _ => 3
  | .ei => 1
  | .undefFC => 1
  | .undefFD => 1
  | .cpD8 _ => 2
  | .rst38 => 1
  | .rlcR _ => 2
  | .rrcR _ => 2
  | .rlR _ => 2
  | .rrR _ => 2
  | .slaR _ => 2
  | .sraR _ => 2
  | .swapR _ => 2
  | .srlR _ => 2
  | .bit7H => 2
  | .bitBR _ _ => 2
  | .resBR _ _ => 2
  | .setBR _ _ => 2

/-! ## Words of the opcode table -/

/-- The three window bytes of a table word `w` of `nbits` bits, first byte first. The table gives a CB row as the 16-bit
number with 0xCB in bits 15 to 8 (R108: "they are 16-bit and apply to `{0xCB, sub}`"), and any other row with the first
byte in bits 7 to 0 (notes/assumptions/12.md). Bits at and above `nbits` are 0.
DESIGN CHOICE (notes/assumptions/12.md): a 16-bit word 0xCBnn is both the CB row with sub-opcode nn and a two-byte row with
first byte nn and immediate 0xCB (0xCB3E: SRL (HL)'s word and LD A,0xCB's). The spec does not say which; the CB row wins. -/
def tableWindow (nbits w : Nat) : Byte × Byte × Byte :=
  let v := w % 2 ^ nbits
  if nbits = 16 ∧ v / 256 = 0xCB then
    (0xCB, BitVec.ofNat 8 v, 0)
  else
    (BitVec.ofNat 8 v, BitVec.ofNat 8 (v / 256), BitVec.ofNat 8 (v / 65536))

/-- The instruction the decoder reads from a table word. -/
def decodeTableWord (nbits w : Nat) : Option Instr :=
  match tableWindow nbits w with
  | (op, b1, b2) =>
    match decode [op, b1, b2] with
    | .ok i => some i
    | .error _ => none

end Sys2Proof
end

