-- ==== Sys2Proof/Machine/Unimplemented.lean ====
section
/-! DEFINITION. The meanings of spec/47_unimplemented.md (R235 to R246) and of spec/45_prefixed_cb.md R217: the rows the
hardware does not build. Each raises `Unimplemented`, writes nothing and leaves PC where it is (R235). The operands an
encoding of the table carries play no part. -/

namespace Sys2Proof.Machine

/-- LD (a16),SP (R238). -/
def execLdA16Sp (_a : Word) (s : State) : Answer := raiseOpcode 0x08 s

/-- STOP (R237). -/
def execStop (s : State) : Answer := raiseOpcode 0x10 s

/-- ADD HL,rr (R239). -/
def execAddHlRr (p : Pair) (s : State) : Answer := raiseOpcode (0b00#2 ++ p.code ++ 0b1001#4) s

/-- (family 7) (R240). -/
def execFamily7 (y : BitVec 3) (s : State) : Answer := raiseOpcode (0b00#2 ++ y ++ 0b111#3) s

/-- HALT (R236). -/
def execHalt (s : State) : Answer := raiseOpcode 0x76 s

/-- RET NZ (R241). -/
def execRetNz (s : State) : Answer := raiseOpcode 0xC0 s

/-- JP NZ,a16 (R242). -/
def execJpNz (_a : Word) (s : State) : Answer := raiseOpcode 0xC2 s

/-- ADD A,d8 (R243). -/
def execAddAD8 (_n : Byte) (s : State) : Answer := raiseOpcode 0xC6 s

/-- RST 0x00 (R244). -/
def execRst00 (s : State) : Answer := raiseOpcode 0xC7 s

/-- RET Z (R241). -/
def execRetZ (s : State) : Answer := raiseOpcode 0xC8 s

/-- JP Z,a16 (R242). -/
def execJpZ (_a : Word) (s : State) : Answer := raiseOpcode 0xCA s

/-- ADC A,d8 (R243). -/
def execAdcAD8 (_n : Byte) (s : State) : Answer := raiseOpcode 0xCE s

/-- RST 0x08 (R244). -/
def execRst08 (s : State) : Answer := raiseOpcode 0xCF s

/-- RET NC (R241). -/
def execRetNc (s : State) : Answer := raiseOpcode 0xD0 s

/-- JP NC,a16 (R242). -/
def execJpNc (_a : Word) (s : State) : Answer := raiseOpcode 0xD2 s

/-- (undefined 0xD3) (R246). -/
def execUndefD3 (s : State) : Answer := raiseOpcode 0xD3 s

/-- SUB d8 (R243). -/
def execSubD8 (_n : Byte) (s : State) : Answer := raiseOpcode 0xD6 s

/-- RST 0x10 (R244). -/
def execRst10 (s : State) : Answer := raiseOpcode 0xD7 s

/-- RET C (R241). -/
def execRetC (s : State) : Answer := raiseOpcode 0xD8 s

/-- JP C,a16 (R242). -/
def execJpC (_a : Word) (s : State) : Answer := raiseOpcode 0xDA s

/-- (undefined 0xDB) (R246). -/
def execUndefDB (s : State) : Answer := raiseOpcode 0xDB s

/-- (undefined 0xDD) (R246). -/
def execUndefDD (s : State) : Answer := raiseOpcode 0xDD s

/-- SBC A,d8 (R243). -/
def execSbcAD8 (_n : Byte) (s : State) : Answer := raiseOpcode 0xDE s

/-- RST 0x18 (R244). -/
def execRst18 (s : State) : Answer := raiseOpcode 0xDF s

/-- LD (C),A (R245). -/
def execLdCA (s : State) : Answer := raiseOpcode 0xE2 s

/-- (undefined 0xE3) (R246). -/
def execUndefE3 (s : State) : Answer := raiseOpcode 0xE3 s

/-- (undefined 0xE4) (R246). -/
def execUndefE4 (s : State) : Answer := raiseOpcode 0xE4 s

/-- AND d8 (R243). -/
def execAndD8 (_n : Byte) (s : State) : Answer := raiseOpcode 0xE6 s

/-- RST 0x20 (R244). -/
def execRst20 (s : State) : Answer := raiseOpcode 0xE7 s

/-- ADD SP,r8 (R245). -/
def execAddSpR8 (_n : Byte) (s : State) : Answer := raiseOpcode 0xE8 s

/-- JP (HL) (R242). -/
def execJpHl (s : State) : Answer := raiseOpcode 0xE9 s

/-- (undefined 0xEB) (R246). -/
def execUndefEB (s : State) : Answer := raiseOpcode 0xEB s

/-- (undefined 0xEC) (R246). -/
def execUndefEC (s : State) : Answer := raiseOpcode 0xEC s

/-- (undefined 0xED) (R246). -/
def execUndefED (s : State) : Answer := raiseOpcode 0xED s

/-- XOR d8 (R243). -/
def execXorD8 (_n : Byte) (s : State) : Answer := raiseOpcode 0xEE s

/-- RST 0x28 (R244). -/
def execRst28 (s : State) : Answer := raiseOpcode 0xEF s

/-- LD A,(C) (R245). -/
def execLdAC (s : State) : Answer := raiseOpcode 0xF2 s

/-- (undefined 0xF4) (R246). -/
def execUndefF4 (s : State) : Answer := raiseOpcode 0xF4 s

/-- OR d8 (R243). -/
def execOrD8 (_n : Byte) (s : State) : Answer := raiseOpcode 0xF6 s

/-- RST 0x30 (R244). -/
def execRst30 (s : State) : Answer := raiseOpcode 0xF7 s

/-- LD HL,SP+r8 (R245). -/
def execLdHlSpR8 (_n : Byte) (s : State) : Answer := raiseOpcode 0xF8 s

/-- LD SP,HL (R245). -/
def execLdSpHl (s : State) : Answer := raiseOpcode 0xF9 s

/-- (undefined 0xFC) (R246). -/
def execUndefFC (s : State) : Answer := raiseOpcode 0xFC s

/-- (undefined 0xFD) (R246). -/
def execUndefFD (s : State) : Answer := raiseOpcode 0xFD s

/-- RST 0x38 (R244). -/
def execRst38 (s : State) : Answer := raiseOpcode 0xFF s

/-- RRC r (R217). -/
def execRrcR (src : Operand8) (s : State) : Answer := raiseSub (0b00001#5 ++ src.code) s

/-- RR r (R217). -/
def execRrR (src : Operand8) (s : State) : Answer := raiseSub (0b00011#5 ++ src.code) s

/-- SLA r (R217). -/
def execSlaR (src : Operand8) (s : State) : Answer := raiseSub (0b00100#5 ++ src.code) s

/-- SRA r (R217). -/
def execSraR (src : Operand8) (s : State) : Answer := raiseSub (0b00101#5 ++ src.code) s

/-- SWAP r (R217). -/
def execSwapR (src : Operand8) (s : State) : Answer := raiseSub (0b00110#5 ++ src.code) s

/-- SRL r (R217). -/
def execSrlR (src : Operand8) (s : State) : Answer := raiseSub (0b00111#5 ++ src.code) s

/-- BIT b,r (R217). -/
def execBitBR (b : BitVec 3) (src : Operand8) (s : State) : Answer := raiseSub (0b01#2 ++ b ++ src.code) s

end Sys2Proof.Machine
end

