-- ==== Sys2Proof/Machine/Dispatch.lean ====
section
/-! DEFINITION. One arm per instruction: line 6 of the step (spec/70_reset_and_hazards.md R302). -/

namespace Sys2Proof.Machine

def exec (i : Instr) (s : State) : Host.Outcome State Fault Refusal :=
  match i with
  | .nop => Sys2Proof.Machine.execNop s
  | .ldA16Sp a => Sys2Proof.Machine.execLdA16Sp a s
  | .stop => Sys2Proof.Machine.execStop s
  | .jr off => Sys2Proof.Machine.execJr off s
  | .jrNz off => Sys2Proof.Machine.execJrNz off s
  | .jrZ off => Sys2Proof.Machine.execJrZ off s
  | .jrNc off => Sys2Proof.Machine.execJrNc off s
  | .jrC off => Sys2Proof.Machine.execJrC off s
  | .ldRrD16 p w => Sys2Proof.Machine.execLdRrD16 p w s
  | .addHlRr p => Sys2Proof.Machine.execAddHlRr p s
  | .ldBcA => Sys2Proof.Machine.execLdBcA s
  | .ldDeA => Sys2Proof.Machine.execLdDeA s
  | .ldHlIncA => Sys2Proof.Machine.execLdHlIncA s
  | .ldHlDecA => Sys2Proof.Machine.execLdHlDecA s
  | .ldABc => Sys2Proof.Machine.execLdABc s
  | .ldADe => Sys2Proof.Machine.execLdADe s
  | .ldAHlInc => Sys2Proof.Machine.execLdAHlInc s
  | .ldAHlDec => Sys2Proof.Machine.execLdAHlDec s
  | .incRr p => Sys2Proof.Machine.execIncRr p s
  | .decRr p => Sys2Proof.Machine.execDecRr p s
  | .incR rd => Sys2Proof.Machine.execIncR rd s
  | .incHl => Sys2Proof.Machine.execIncHl s
  | .decR rd => Sys2Proof.Machine.execDecR rd s
  | .decHl => Sys2Proof.Machine.execDecHl s
  | .ldRD8 rd n => Sys2Proof.Machine.execLdRD8 rd n s
  | .ldHlD8 n => Sys2Proof.Machine.execLdHlD8 n s
  | .family7 y => Sys2Proof.Machine.execFamily7 y s
  | .halt => Sys2Proof.Machine.execHalt s
  | .ldRHl rd => Sys2Proof.Machine.execLdRHl rd s
  | .ldHlR rs => Sys2Proof.Machine.execLdHlR rs s
  | .ldRR rd rs => Sys2Proof.Machine.execLdRR rd rs s
  | .addAR src => Sys2Proof.Machine.execAddAR src s
  | .adcAR src => Sys2Proof.Machine.execAdcAR src s
  | .subR src => Sys2Proof.Machine.execSubR src s
  | .sbcAR src => Sys2Proof.Machine.execSbcAR src s
  | .andR src => Sys2Proof.Machine.execAndR src s
  | .xorR src => Sys2Proof.Machine.execXorR src s
  | .orR src => Sys2Proof.Machine.execOrR src s
  | .cpR src => Sys2Proof.Machine.execCpR src s
  | .retNz => Sys2Proof.Machine.execRetNz s
  | .popBc => Sys2Proof.Machine.execPopBc s
  | .jpNz a => Sys2Proof.Machine.execJpNz a s
  | .jp a => Sys2Proof.Machine.execJp a s
  | .callNz a => Sys2Proof.Machine.execCallNz a s
  | .pushBc => Sys2Proof.Machine.execPushBc s
  | .addAD8 n => Sys2Proof.Machine.execAddAD8 n s
  | .rst00 => Sys2Proof.Machine.execRst00 s
  | .retZ => Sys2Proof.Machine.execRetZ s
  | .ret => Sys2Proof.Machine.execRet s
  | .jpZ a => Sys2Proof.Machine.execJpZ a s
  | .callZ a => Sys2Proof.Machine.execCallZ a s
  | .call a => Sys2Proof.Machine.execCall a s
  | .adcAD8 n => Sys2Proof.Machine.execAdcAD8 n s
  | .rst08 => Sys2Proof.Machine.execRst08 s
  | .retNc => Sys2Proof.Machine.execRetNc s
  | .popDe => Sys2Proof.Machine.execPopDe s
  | .jpNc a => Sys2Proof.Machine.execJpNc a s
  | .undefD3 => Sys2Proof.Machine.execUndefD3 s
  | .callNc a => Sys2Proof.Machine.execCallNc a s
  | .pushDe => Sys2Proof.Machine.execPushDe s
  | .subD8 n => Sys2Proof.Machine.execSubD8 n s
  | .rst10 => Sys2Proof.Machine.execRst10 s
  | .retC => Sys2Proof.Machine.execRetC s
  | .reti => Sys2Proof.Machine.execReti s
  | .jpC a => Sys2Proof.Machine.execJpC a s
  | .undefDB => Sys2Proof.Machine.execUndefDB s
  | .callC a => Sys2Proof.Machine.execCallC a s
  | .undefDD => Sys2Proof.Machine.execUndefDD s
  | .sbcAD8 n => Sys2Proof.Machine.execSbcAD8 n s
  | .rst18 => Sys2Proof.Machine.execRst18 s
  | .ldhA8A n => Sys2Proof.Machine.execLdhA8A n s
  | .popHl => Sys2Proof.Machine.execPopHl s
  | .ldCA => Sys2Proof.Machine.execLdCA s
  | .undefE3 => Sys2Proof.Machine.execUndefE3 s
  | .undefE4 => Sys2Proof.Machine.execUndefE4 s
  | .pushHl => Sys2Proof.Machine.execPushHl s
  | .andD8 n => Sys2Proof.Machine.execAndD8 n s
  | .rst20 => Sys2Proof.Machine.execRst20 s
  | .addSpR8 n => Sys2Proof.Machine.execAddSpR8 n s
  | .jpHl => Sys2Proof.Machine.execJpHl s
  | .ldA16A a => Sys2Proof.Machine.execLdA16A a s
  | .undefEB => Sys2Proof.Machine.execUndefEB s
  | .undefEC => Sys2Proof.Machine.execUndefEC s
  | .undefED => Sys2Proof.Machine.execUndefED s
  | .xorD8 n => Sys2Proof.Machine.execXorD8 n s
  | .rst28 => Sys2Proof.Machine.execRst28 s
  | .ldhAA8 n => Sys2Proof.Machine.execLdhAA8 n s
  | .popAf => Sys2Proof.Machine.execPopAf s
  | .ldAC => Sys2Proof.Machine.execLdAC s
  | .di => Sys2Proof.Machine.execDi s
  | .undefF4 => Sys2Proof.Machine.execUndefF4 s
  | .pushAf => Sys2Proof.Machine.execPushAf s
  | .orD8 n => Sys2Proof.Machine.execOrD8 n s
  | .rst30 => Sys2Proof.Machine.execRst30 s
  | .ldHlSpR8 n => Sys2Proof.Machine.execLdHlSpR8 n s
  | .ldSpHl => Sys2Proof.Machine.execLdSpHl s
  | .ldAA16 a => Sys2Proof.Machine.execLdAA16 a s
  | .ei => Sys2Proof.Machine.execEi s
  | .undefFC => Sys2Proof.Machine.execUndefFC s
  | .undefFD => Sys2Proof.Machine.execUndefFD s
  | .cpD8 n => Sys2Proof.Machine.execCpD8 n s
  | .rst38 => Sys2Proof.Machine.execRst38 s
  | .rlcR src => Sys2Proof.Machine.execRlcR src s
  | .rrcR src => Sys2Proof.Machine.execRrcR src s
  | .rlR src => Sys2Proof.Machine.execRlR src s
  | .rrR src => Sys2Proof.Machine.execRrR src s
  | .slaR src => Sys2Proof.Machine.execSlaR src s
  | .sraR src => Sys2Proof.Machine.execSraR src s
  | .swapR src => Sys2Proof.Machine.execSwapR src s
  | .srlR src => Sys2Proof.Machine.execSrlR src s
  | .bit7H => Sys2Proof.Machine.execBit7H s
  | .bitBR b src => Sys2Proof.Machine.execBitBR b src s
  | .resBR b src => Sys2Proof.Machine.execResBR b src s
  | .setBR b src => Sys2Proof.Machine.execSetBR b src s

end Sys2Proof.Machine
end

