-- ==== Sys2Proof/Machine/Fetch.lean ====
section
/-! DEFINITION. Lines 1 to 5 of the step (spec/70_reset_and_hazards.md R302): the PC-unchanged check, the range check, the
three reads, the sentinel, the classification; and where a program's bytes are put for the next fetch. -/

namespace Sys2Proof.Machine

/-- `prev_pc <- some pc` (R304). -/
def State.recordPc (s : State) : State := { s with prevPc := some s.pc }

/-- The three reads of R303, in address order, with `MemRead` and without wrapping. -/
def State.fetchWindow (s : State) : Except Fault (Byte × Byte × Byte) :=
  match s.memRead s.pc.toNat with
  | .error e => .error e
  | .ok op =>
    match s.memRead (s.pc.toNat + 1) with
    | .error e => .error e
    | .ok b1 =>
      match s.memRead (s.pc.toNat + 2) with
      | .error e => .error e
      | .ok b2 => .ok (op, b1, b2)

/-- Lines 1 to 5 of the step, whose order is the priority of spec/60_exceptions.md R267. Line 5 gives the instruction; an
unimplemented row's own meaning raises its error. A window the decoder rejects cannot arise, and R263 gives such an arm
`InvariantViolation`. -/
def State.fetchDecode (s : State) : Except Fault Instr :=
  if s.prevPc = some s.pc then .error (.invariantViolation s.pc)
  else if Config.lastFetch < s.pc.toNat then .error (.configurationError 0x10000 s.pc)
  else
    match s.fetchWindow with
    | .error e => .error e
    | .ok (op, b1, b2) =>
      if op = s.par.sentinel then .error (.invalidOpcode s.pc)
      else
        match decode [op, b1, b2] with
        | .error _ => .error (.invariantViolation s.pc)
        | .ok i => .ok i

/-- Whether the three bytes at an address can be fetched under every `IoMap`: none lies in the window or past the end. -/
def fetchable (pc : Word) : Bool := pc.toNat ≤ 0xFEFD || (0xFF80 ≤ pc.toNat && pc.toNat ≤ Config.lastFetch)

/-- The window bytes stored where the next step fetches, with the conditions of that fetch met: PC stays where it is if
its window can be fetched and is 0, as after an injection, if not; `prev_pc` is as after an injection (R296); no error is
latched. Every other field is kept. This stands for loading a program from outside (notes/assumptions/12.md). -/
def State.placeWindow (s : State) (bytes : Byte × Byte × Byte) : State :=
  let base := if fetchable s.pc then s.pc else 0
  let s1 := { s with pc := base, prevPc := none, fault := none }
  ((s1.poke base.toNat bytes.1).poke (base.toNat + 1) bytes.2.1).poke (base.toNat + 2) bytes.2.2

end Sys2Proof.Machine
end

