-- ==== Sys2Proof/Machine/Step.lean ====
section
/-! DEFINITION. One step (spec/70_reset_and_hazards.md R302). -/

namespace Sys2Proof.Machine

/-- One pass of fetch, classify, execute, advance PC. While an error is latched no step executes, and the error is the
answer (spec/10_state.md R34, spec/60_exceptions.md R270). -/
def step (s : State) : Host.Outcome State Fault Refusal :=
  match s.fault with
  | some e => .fault e
  | none =>
    match s.fetchDecode with
    | .error e => .fault e
    | .ok i => exec i s.recordPc

/-- `s` with a table word stored where `step` fetches its next instruction. -/
def State.withFetchWord (s : State) (nbits w : Nat) : State := s.placeWindow (tableWindow nbits w)

end Sys2Proof.Machine
end

