-- ==== Sys2Proof/Machine/Session.lean ====
section
/-! DEFINITION. The host interface (spec/60_exceptions.md R286, R287; spec/70_reset_and_hazards.md R296 to R301): ROM injection,
Run, the state a fatal error leaves, and inspection. Power-on is `State.powerOn` (Machine/State.lean). -/

namespace Sys2Proof.Machine

/-! ## Injection -/

/-- The bytes an injection leaves from address 0: the boot bytes, then the cartridge bytes that reach beyond them (R296). -/
def overlay (boot cart : List Byte) : List Byte := boot ++ cart.drop boot.length

/-- ROM injection (R296, R297): an absent image is empty, an image that does not fit is refused with
`ConfigurationError` and changes nothing, and an injection is allowed only between Run calls. -/
def State.inject (s : State) (boot cart : Option (List Byte)) : Answer :=
  let bootBytes := boot.getD []
  let cartBytes := cart.getD []
  match s.run with
  | .running => .refused .hostDuringRun
  | .stopped =>
    if Config.memSize < max bootBytes.length cartBytes.length then
      .fault (.configurationError Config.memSize s.pc)
    else
      .next { s with
        mem := Memory.ofImage s.par.sentinel 0 (overlay bootBytes cartBytes)
        pc := 0x0000
        prevPc := none }

/-! ## The state a fatal error leaves (spec/60_exceptions.md R266, R268) -/

/-- What an instruction has written when one of its own accesses raises an error: the pushes have moved SP and may have
stored the low byte; every other instruction has written nothing (R268). -/
def leftByInstr (i : Instr) (s : State) : State :=
  match i with
  | .pushBc => s.push16Left s.bc
  | .pushDe => s.push16Left s.de
  | .pushHl => s.push16Left s.hl
  | .pushAf => s.push16Left s.af
  | .call _ => s.push16Left (s.pc + 3)
  | .callNz _ => s.push16Left (s.pc + 3)
  | .callZ _ => s.push16Left (s.pc + 3)
  | .callNc _ => s.push16Left (s.pc + 3)
  | .callC _ => s.push16Left (s.pc + 3)
  | _ => s

/-- The state a step that raised `e` leaves: `prev_pc` is written at line 1 of the step (R302, R304), then the partial
writes of R268, then the entry of R266. A step on a state with a latched error changes nothing (R270). -/
def State.afterFatal (s : State) (e : Fault) : State :=
  match s.fault with
  | some _ => s
  | none =>
    match s.fetchDecode with
    | .error _ => s.recordPc.latch e
    | .ok i => (leftByInstr i s.recordPc).latch e

/-! ## Run (R299 to R301) -/

/-- What a Run call returns to the host. -/
inductive RunResult where
  /-- The budget was exhausted. -/
  | success
  /-- A fatal error. -/
  | fatal (e : Fault)
  /-- The model refused; no step does. -/
  | refused (r : Refusal)
  deriving DecidableEq, Repr

/-- The loop of R299: at most `k` steps, stopping at the first fatal error. -/
def runLoop : Nat → State → State × RunResult
  | 0, s => (s, .success)
  | k + 1, s =>
    match step s with
    | .next t => runLoop k t
    | .fault e => (s.afterFatal e, .fatal e)
    | .refused r => (s, .refused r)

/-- Run(some k) (R299): on a faulted session nothing executes and the recorded error is returned (R300). -/
def State.runCall (k : Nat) (s : State) : State × RunResult :=
  match s.fault with
  | some e => (s, .fatal e)
  | none =>
    match s.run with
    | .running => (s, .refused .hostDuringRun)
    | .stopped =>
      let (t, r) := runLoop k { s with run := .running }
      ({ t with run := .stopped }, r)

/-- Run(n) with the budget of R5 and R299, `none` meaning unbounded, as a relation: an unbounded call returns only by
a fatal error, that of some bounded call (R301). -/
def State.RunReturns (n : Option Nat) (s t : State) (r : RunResult) : Prop :=
  match n with
  | some k => s.runCall k = (t, r)
  | none => (∃ e, r = .fatal e) ∧ ∃ k, s.runCall k = (t, r)

/-! ## Inspection (R286) -/

/-- The register part of a snapshot, the pair views and F as a byte included. `prev_pc` is hidden (R35). -/
structure Snapshot where
  a : Byte
  b : Byte
  c : Byte
  d : Byte
  e : Byte
  h : Byte
  l : Byte
  f : Byte
  sp : Word
  pc : Word
  bc : Word
  de : Word
  hl : Word
  af : Word
  ime : Bool
  fault : Option Fault
  deriving DecidableEq, Repr

/-- The registers as the host sees them between Run calls. -/
def State.inspect (s : State) : Snapshot where
  a := s.a
  b := s.b
  c := s.c
  d := s.d
  e := s.e
  h := s.h
  l := s.l
  f := s.flags.toByte
  sp := s.sp
  pc := s.pc
  bc := s.bc
  de := s.de
  hl := s.hl
  af := s.af
  ime := s.ime
  fault := s.fault

/-- The byte of MEM the host sees at an address: the raw cell, not `MemRead` (R286). -/
def State.inspectByte (s : State) (addr : Word) : Byte := s.peek addr.toNat

end Sys2Proof.Machine
end

