-- ==== Sys2Proof/WellFormed.lean ====
section
/-! DEFINITION. Which instruction terms stand for an encoding of their own row. The types of the operands already bound
every field (a register index is never 6, a bit number is below 8); one row of the table needs a check more. -/

namespace Sys2Proof

/-- The row BIT b,r "matches every bit-test except 0x7C; the BIT 7,H row takes precedence" (spec/opcode_table.json,
spec/30_encoding.md R97, R108): the word of `bitBR 7 H` belongs to `bit7H`. Every other term is well formed. -/
def Instr.wf : Instr → Bool
  | .bitBR b src => !(b == 7 && src == .reg .h)
  | _ => true

end Sys2Proof
end

