-- ==== Sys2Proof/Safety.lean ====
section
/-! DEFINITION. What counts as a safe state, a safe access and a safe run, in the terms the claims use. -/

namespace Sys2Proof

/-- The instructions that write memory (spec/20_memory.md R61). -/
def Instr.storesMemory : Instr → Bool
  | .ldHlR _ | .ldHlD8 _ | .ldBcA | .ldDeA | .ldHlIncA | .ldHlDecA | .ldhA8A _ | .ldA16A _ => true
  | .incHl | .decHl => true
  | .rlcR .hlInd | .rlR .hlInd | .resBR _ .hlInd | .setBR _ .hlInd => true
  | .pushBc | .pushDe | .pushHl | .pushAf => true
  | .call _ | .callNz _ | .callZ _ | .callNc _ | .callC _ => true
  | _ => false

/-- The instructions that write SP (spec/10_state.md R33). -/
def Instr.writesSp : Instr → Bool
  | .ldRrD16 .sp _ | .incRr .sp | .decRr .sp => true
  | .pushBc | .pushDe | .pushHl | .pushAf | .popBc | .popDe | .popHl | .popAf => true
  | .call _ | .callNz _ | .callZ _ | .callNc _ | .callC _ | .ret | .reti => true
  | _ => false

/-- The instructions that write a flag (R29). -/
def Instr.writesFlags : Instr → Bool
  | .incR _ | .incHl | .decR _ | .decHl => true
  | .addAR _ | .adcAR _ | .subR _ | .sbcAR _ | .andR _ | .xorR _ | .orR _ | .cpR _ | .cpD8 _ => true
  | .rlcR _ | .rlR _ | .bit7H | .popAf => true
  | _ => false

/-- The instructions that write Carry (R29): INC, DEC and BIT 7,H leave it unchanged. -/
def Instr.writesCarry : Instr → Bool
  | .addAR _ | .adcAR _ | .subR _ | .sbcAR _ | .andR _ | .xorR _ | .orR _ | .cpR _ | .cpD8 _ => true
  | .rlcR _ | .rlR _ | .popAf => true
  | _ => false

/-- The instructions that write IME (R30). -/
def Instr.writesIme : Instr → Bool
  | .di | .ei | .reti => true
  | _ => false

/-- The instructions that transfer control (R305). -/
def Instr.transfersControl : Instr → Bool
  | .jr _ | .jrNz _ | .jrZ _ | .jrNc _ | .jrC _ | .jp _ => true
  | .call _ | .callNz _ | .callZ _ | .callNc _ | .callC _ | .ret | .reti => true
  | _ => false

end Sys2Proof

namespace Sys2Proof.Machine

/-- The constraint on `SENTINEL` (spec/47_unimplemented.md R248, spec/00_scope.md R5): a member of `Unassigned` and none of
0x76, 0x10, 0x08. -/
abbrev sentinelLegal (b : Byte) : Prop := b ∈ unassigned ∧ b ≠ 0x76 ∧ b ≠ 0x10 ∧ b ≠ 0x08

/-- The invariant of a session: MEM is in canonical form (every address one of the 65,536) and `SENTINEL` meets its
constraint. -/
abbrev State.Inv (s : State) : Prop := Memory.wf s.par.sentinel s.mem ∧ sentinelLegal s.par.sentinel

/-- Whether a read at an address succeeds (spec/20_memory.md R52): it exists, and it is plain storage or a port of a class
that can be read. -/
abbrev State.Readable (s : State) (addr : Nat) : Prop :=
  addr < Config.memSize ∧
    (inWindow addr → portClass s.par addr ≠ .notBuilt ∧ portClass s.par addr ≠ .undocumented)

/-- Whether a write at an address succeeds (R53). -/
abbrev State.Writable (s : State) (addr : Nat) : Prop :=
  addr < Config.memSize ∧
    (inWindow addr → portClass s.par addr ≠ .notBuilt ∧ portClass s.par addr ≠ .undocumented ∧
      portClass s.par addr ≠ .scanLine)

/-- Whether an 8-bit operand can be read and written back. -/
abbrev State.OperandModifiable (s : State) : Operand8 → Prop
  | .reg _ => True
  | .hlInd => s.Writable s.hl.toNat

/-- Whether a push succeeds: the two bytes below SP can be written (spec/43_stack_call_return.md R175). -/
abbrev State.Pushable (s : State) : Prop :=
  s.Writable (s.sp - 2).toNat ∧ s.Writable ((s.sp - 2).toNat + 1)

/-- Whether a pop succeeds: the two bytes at SP can be read (R176). -/
abbrev State.Poppable (s : State) : Prop := s.Readable s.sp.toNat ∧ s.Readable (s.sp.toNat + 1)

/-- Whether a write at an address is one that leaves every other byte of MEM alone: it does not go to a single-purpose port,
whose write the instantiation of `IoMap` defines (spec/20_memory.md R53, R58). -/
abbrev State.PlainTarget (s : State) (addr : Nat) : Prop :=
  inWindow addr → ∀ p, portClass s.par addr ≠ .special p

/-- `run`, `fault`, `prev_pc` and the session's parameters are the same in both states. -/
abbrev State.SameSession (s t : State) : Prop :=
  t.run = s.run ∧ t.fault = s.fault ∧ t.prevPc = s.prevPc ∧ t.par = s.par

/-- Every byte of MEM reads the same in both states. -/
abbrev State.SameBytes (s t : State) : Prop := ∀ addr, t.peek addr = s.peek addr

/-- Everything but the seven 8-bit registers, F and PC is the same in both states. -/
abbrev State.SameBeyondRegisters (s t : State) : Prop :=
  t.sp = s.sp ∧ t.ime = s.ime ∧ t.draws = s.draws ∧ s.SameSession t ∧ s.SameBytes t

/-- What one `MemWrite(addr, 1, v)` that succeeds does to the bytes of MEM (spec/20_memory.md R53): plain storage and a
`Stored` port take the byte, a `Sound` port drops it, no other byte changes, and a single-purpose port does what the
instantiation of `IoMap` says. -/
abbrev State.StoredByte (s t : State) (addr : Nat) (v : Byte) : Prop :=
  ((inWindow addr → portClass s.par addr = .stored) → t.peek addr = v) ∧
  (inWindow addr → portClass s.par addr = .sound → t.peek addr = s.peek addr) ∧
  (s.PlainTarget addr → ∀ other, other ≠ addr → t.peek other = s.peek other) ∧
  (inWindow addr → ∀ p, portClass s.par addr = .special p →
    t.mem = Memory.ofCells s.par.sentinel (Config.specialWrite p s.par.sentinel s.mem v))

/-- An address whose write stores the byte: plain storage or a `Stored` port (R53). -/
abbrev State.TakesByte (s : State) (addr : Nat) : Prop :=
  addr < Config.memSize ∧ (inWindow addr → portClass s.par addr = .stored)

/-- The conditions under which a step reaches line 5 (spec/70_reset_and_hazards.md R302): no latched error, PC moved since
the last step, PC at most 0xFFFD, the three reads succeed with these bytes, and the opcode is not `SENTINEL`. -/
abbrev State.Fetches (s : State) (op b1 b2 : Byte) : Prop :=
  s.fault = none ∧ s.prevPc ≠ some s.pc ∧ s.pc.toNat ≤ Config.lastFetch ∧
  s.memRead s.pc.toNat = .ok op ∧ s.memRead (s.pc.toNat + 1) = .ok b1 ∧ s.memRead (s.pc.toNat + 2) = .ok b2 ∧
  op ≠ s.par.sentinel

/-- The same instruction executed `k` times in a row. -/
def execTimes : Nat → Instr → State → Answer
  | 0, _, s => .next s
  | k + 1, i, s =>
    match exec i s with
    | .next t => execTimes k i t
    | .fault e => .fault e
    | .refused r => .refused r

/-- A run of `k` steps that meets no fatal error. -/
def State.SafeFor (k : Nat) (s : State) : Prop := (runLoop k s).2 = .success

end Sys2Proof.Machine
end

