-- ==== Sys2Proof/Certificates/Slice0/Obligations.lean ====
section
/-! DEFINITION. The statements for the provers. Each docstring names the rules of spec/ it rests on and, where a clause rests on a
choice the spec marks as its own or on a row of notes/assumptions, says so. Three of the spec's own choices stand behind many
statements and are named here once (spec/92_eei_decisions.md): sums on PC and SP wrap mod 65536 (D13); the sizes the source does
not state, NOP's among them (D18); a read-modify-write of (HL) is one read and then one write (D41). -/

open Sys2Proof Sys2Proof.Machine

/-! ## Encoding -/

/-- A decoded encoding is the instruction it encodes, whatever bytes follow it in the fetch window (R80, R83, R84, R101: the
trailing bytes an instruction does not use do not affect it). The opcode values of Quadrant 4, of family 0 and of the
prefixed rows 0 to 15 are the spec's own inference (spec/92_eei_decisions.md D16, D17, D21, D24). -/
def Obligations.DecodeOfEncodeUnderAnyTrailingBytes : Prop :=
  ∀ (i : Instr) (tail : List Byte), i.wf = true → 3 ≤ (encode i ++ tail).length → decode (encode i ++ tail) = .ok i

/-- The decoder is total on a fetch window, what it gives is well formed, and encoding it gives back the first bytes of
the window, as many as the instruction has (R98, R99, R101: no bit of an encoding is ignored). -/
def Obligations.EncodeOfDecodeGivesBackTheWindow : Prop :=
  ∀ (op b1 b2 : Byte) (rest : List Byte), ∃ i : Instr, decode (op :: b1 :: b2 :: rest) = .ok i ∧ i.wf = true ∧
    encode i = [op, b1, b2].take i.size

/-- Words written out from the spec's encodings, one or more of each family, decode to what they stand for: the worked
examples of R121 (78), R124 (01 CD AB), R133 (3E 44), R149 (04), R160 (87), R165 (AF), R177 (C5), R180 (CD 10 00), R196
(18 FC), R214 (CB 7C), R216 (CB C6), R225 (E0 80), R236 (76), R217 (CB 37). Of these, 18 is a JR (D17), C5, CD and E0 are PUSH
BC, CALL and LDH (D21), CB 7C is the bit test of H and CB 37 a SWAP (D24), and the pair of 01 and C5 is BC (D15): these are
the spec's own inference from general knowledge and not the source's encodings; the operand field of 04 and 3E is its inference
too (D43) (notes/assumptions/7.md). -/
def Obligations.WordsOfTheSpecDecode : Prop :=
  decode [0x78, 0x00, 0x00] = .ok (.ldRR .a .b) ∧
  decode [0x01, 0xCD, 0xAB] = .ok (.ldRrD16 .bc 0xABCD) ∧
  decode [0x3E, 0x44, 0x87] = .ok (.ldRD8 .a 0x44) ∧
  decode [0x04, 0x00, 0x00] = .ok (.incR .b) ∧
  decode [0x87, 0x00, 0x00] = .ok (.addAR (.reg .a)) ∧
  decode [0xAF, 0x00, 0x00] = .ok (.xorR (.reg .a)) ∧
  decode [0xC5, 0x00, 0x00] = .ok .pushBc ∧
  decode [0xCD, 0x10, 0x00] = .ok (.call 0x0010) ∧
  decode [0x18, 0xFC, 0x00] = .ok (.jr 0xFC) ∧
  decode [0xCB, 0x7C, 0x00] = .ok .bit7H ∧
  decode [0xCB, 0xC6, 0x00] = .ok (.setBR 0 .hlInd) ∧
  decode [0xE0, 0x80, 0x00] = .ok (.ldhA8A 0x80) ∧
  decode [0x76, 0x00, 0x00] = .ok .halt ∧
  decode [0xCB, 0x37, 0x00] = .ok (.swapR (.reg .a))

/-- A first byte other than the prefix makes its instruction raise `Unimplemented` naming that byte exactly when it is one
of the 55 of `Unassigned` (R235, R247). Which bytes those are rests on decisions of the spec (D19 to D23). -/
def Obligations.UnassignedBytesAreExactlyTheUnimplementedOpcodes : Prop :=
  unassigned.length = 55 ∧ unassigned.Nodup ∧
  ∀ (op b1 b2 : Byte) (s : State), op ≠ 0xCB →
    (exec (classify op b1 b2) s = .fault (.unimplemented (.opcode op) s.pc) ↔ op ∈ unassigned)

/-! ## The unimplemented rows stop -/

/-- HALT, R236: 0x76 is special-cased as not implemented rather than decoded as a move. -/
def Obligations.HaltRaisesUnimplemented : Prop :=
  (∀ b1 b2 : Byte, classify 0x76 b1 b2 = .halt) ∧
  ∀ s : State, exec .halt s = .fault (.unimplemented (.opcode 0x76) s.pc)

/-- R237 to R246: every other unbuilt first byte stops: STOP, LD (a16),SP, the right half of family 1, family 7, the conditional
returns and jumps, JP (HL), the ALU immediates other than compare, the restarts, the other fixed forms and the eleven
bytes that are no instruction. Which byte is which is the spec's own inference (D17, D19 to D23). -/
def Obligations.UnbuiltFirstBytesStop : Prop :=
  ∀ (s : State) (a : Word) (p : Pair) (y : BitVec 3) (n : Byte),
    exec .stop s = .fault (.unimplemented (.opcode 0x10) s.pc) ∧
    exec (.ldA16Sp a) s = .fault (.unimplemented (.opcode 0x08) s.pc) ∧
    exec (.addHlRr p) s = .fault (.unimplemented (.opcode (0b00#2 ++ p.code ++ 0b1001#4)) s.pc) ∧
    exec (.family7 y) s = .fault (.unimplemented (.opcode (0b00#2 ++ y ++ 0b111#3)) s.pc) ∧
    exec .retNz s = .fault (.unimplemented (.opcode 0xC0) s.pc) ∧
    exec .retZ s = .fault (.unimplemented (.opcode 0xC8) s.pc) ∧
    exec .retNc s = .fault (.unimplemented (.opcode 0xD0) s.pc) ∧
    exec .retC s = .fault (.unimplemented (.opcode 0xD8) s.pc) ∧
    exec (.jpNz a) s = .fault (.unimplemented (.opcode 0xC2) s.pc) ∧
    exec (.jpZ a) s = .fault (.unimplemented (.opcode 0xCA) s.pc) ∧
    exec (.jpNc a) s = .fault (.unimplemented (.opcode 0xD2) s.pc) ∧
    exec (.jpC a) s = .fault (.unimplemented (.opcode 0xDA) s.pc) ∧
    exec .jpHl s = .fault (.unimplemented (.opcode 0xE9) s.pc) ∧
    exec (.addAD8 n) s = .fault (.unimplemented (.opcode 0xC6) s.pc) ∧
    exec (.adcAD8 n) s = .fault (.unimplemented (.opcode 0xCE) s.pc) ∧
    exec (.subD8 n) s = .fault (.unimplemented (.opcode 0xD6) s.pc) ∧
    exec (.sbcAD8 n) s = .fault (.unimplemented (.opcode 0xDE) s.pc) ∧
    exec (.andD8 n) s = .fault (.unimplemented (.opcode 0xE6) s.pc) ∧
    exec (.xorD8 n) s = .fault (.unimplemented (.opcode 0xEE) s.pc) ∧
    exec (.orD8 n) s = .fault (.unimplemented (.opcode 0xF6) s.pc) ∧
    exec .rst00 s = .fault (.unimplemented (.opcode 0xC7) s.pc) ∧
    exec .rst08 s = .fault (.unimplemented (.opcode 0xCF) s.pc) ∧
    exec .rst10 s = .fault (.unimplemented (.opcode 0xD7) s.pc) ∧
    exec .rst18 s = .fault (.unimplemented (.opcode 0xDF) s.pc) ∧
    exec .rst20 s = .fault (.unimplemented (.opcode 0xE7) s.pc) ∧
    exec .rst28 s = .fault (.unimplemented (.opcode 0xEF) s.pc) ∧
    exec .rst30 s = .fault (.unimplemented (.opcode 0xF7) s.pc) ∧
    exec .rst38 s = .fault (.unimplemented (.opcode 0xFF) s.pc) ∧
    exec .ldCA s = .fault (.unimplemented (.opcode 0xE2) s.pc) ∧
    exec .ldAC s = .fault (.unimplemented (.opcode 0xF2) s.pc) ∧
    exec (.addSpR8 n) s = .fault (.unimplemented (.opcode 0xE8) s.pc) ∧
    exec (.ldHlSpR8 n) s = .fault (.unimplemented (.opcode 0xF8) s.pc) ∧
    exec .ldSpHl s = .fault (.unimplemented (.opcode 0xF9) s.pc) ∧
    exec .undefD3 s = .fault (.unimplemented (.opcode 0xD3) s.pc) ∧
    exec .undefDB s = .fault (.unimplemented (.opcode 0xDB) s.pc) ∧
    exec .undefDD s = .fault (.unimplemented (.opcode 0xDD) s.pc) ∧
    exec .undefE3 s = .fault (.unimplemented (.opcode 0xE3) s.pc) ∧
    exec .undefE4 s = .fault (.unimplemented (.opcode 0xE4) s.pc) ∧
    exec .undefEB s = .fault (.unimplemented (.opcode 0xEB) s.pc) ∧
    exec .undefEC s = .fault (.unimplemented (.opcode 0xEC) s.pc) ∧
    exec .undefED s = .fault (.unimplemented (.opcode 0xED) s.pc) ∧
    exec .undefF4 s = .fault (.unimplemented (.opcode 0xF4) s.pc) ∧
    exec .undefFC s = .fault (.unimplemented (.opcode 0xFC) s.pc) ∧
    exec .undefFD s = .fault (.unimplemented (.opcode 0xFD) s.pc)

/-- R217: the unbuilt rotates, shifts, swaps and bit tests stop, naming their sub-opcode, and after 0xCB exactly 111 sub-opcodes
do. The row numbers 0 to 15 are the spec's own inference (D24). -/
def Obligations.UnbuiltPrefixedRowsStop : Prop :=
  (∀ (s : State) (b : BitVec 3) (src : Operand8),
    exec (.rrcR src) s = .fault (.unimplemented (.sub (0b00001#5 ++ src.code)) s.pc) ∧
    exec (.rrR src) s = .fault (.unimplemented (.sub (0b00011#5 ++ src.code)) s.pc) ∧
    exec (.slaR src) s = .fault (.unimplemented (.sub (0b00100#5 ++ src.code)) s.pc) ∧
    exec (.sraR src) s = .fault (.unimplemented (.sub (0b00101#5 ++ src.code)) s.pc) ∧
    exec (.swapR src) s = .fault (.unimplemented (.sub (0b00110#5 ++ src.code)) s.pc) ∧
    exec (.srlR src) s = .fault (.unimplemented (.sub (0b00111#5 ++ src.code)) s.pc) ∧
    exec (.bitBR b src) s = .fault (.unimplemented (.sub (0b01#2 ++ b ++ src.code)) s.pc)) ∧
  ∀ (sub b2 : Byte) (s : State),
    exec (classify 0xCB sub b2) s = .fault (.unimplemented (.sub sub) s.pc) ↔
      (0x08 ≤ sub.toNat ∧ sub.toNat ≤ 0x0F) ∨ (0x18 ≤ sub.toNat ∧ sub.toNat ≤ 0x7F ∧ sub.toNat ≠ 0x7C)

/-! ## Memory -/

/-- `MemRead` (R52), as a function of the address and its class. -/
def Obligations.MemReadByAddressAndClass : Prop :=
  ∀ (s : State) (addr : Nat),
    (0xFFFF < addr → s.memRead addr = .error (.configurationError addr s.pc)) ∧
    (addr ≤ 0xFFFF → addr < 0xFF00 ∨ 0xFF7F < addr → s.memRead addr = .ok (s.peek addr)) ∧
    (0xFF00 ≤ addr → addr ≤ 0xFF7F →
      s.memRead addr =
        match portClass s.par addr with
        | .sound => .ok (s.peek addr)
        | .stored => .ok (s.peek addr)
        | .scanLine => .ok s.par.scanline
        | .special p => .ok (Config.specialRead p s.par.sentinel s.mem)
        | .notBuilt => .error (.unimplemented (.port addr) s.pc)
        | .undocumented => .error (.undocumentedPort addr .read s.pc))

/-- A write succeeds exactly at a writable address, changes at most MEM, and does to the bytes what R53 says; where it fails,
the error is the one of its class. The error of a write to the scan-line port is the spec's own choice (D9). -/
def Obligations.MemWriteChangesAtMostMem : Prop :=
  ∀ (s : State) (addr : Nat) (v : Byte),
    (s.Writable addr → ∃ t, s.memWrite addr v = .ok t ∧ t = { s with mem := t.mem } ∧ s.StoredByte t addr v) ∧
    (0xFFFF < addr → s.memWrite addr v = .error (.configurationError addr s.pc)) ∧
    (inWindow addr → portClass s.par addr = .undocumented →
      s.memWrite addr v = .error (.undocumentedPort addr .write s.pc)) ∧
    (inWindow addr → portClass s.par addr = .notBuilt ∨ portClass s.par addr = .scanLine →
      s.memWrite addr v = .error (.unimplemented (.port addr) s.pc))

/-- R59: outside the window no access raises an error; inside it an access raises one exactly when the class says so (R58). That
a write to a `ScanLine` port is one that fails is the spec's own choice (D9, notes/assumptions/9.md). -/
def Obligations.AccessesFailOnlyInTheWindow : Prop :=
  ∀ (s : State) (addr : Nat) (v : Byte), addr ≤ 0xFFFF →
    ((addr ≤ 0xFEFF ∨ 0xFF80 ≤ addr) → (∃ w, s.memRead addr = .ok w) ∧ ∃ t, s.memWrite addr v = .ok t) ∧
    (0xFF00 ≤ addr → addr ≤ 0xFF7F →
      ((∃ e, s.memRead addr = .error e) ↔
        portClass s.par addr = .notBuilt ∨ portClass s.par addr = .undocumented) ∧
      ((∃ e, s.memWrite addr v = .error e) ↔
        portClass s.par addr = .notBuilt ∨ portClass s.par addr = .undocumented ∨ portClass s.par addr = .scanLine))

/-- A byte of MEM reads as the last byte stored there, and two stores commute up to equal states where they do not
overlap (R64, and the canonical form of the model's memory). -/
def Obligations.StoresAreSeenAndIndependent : Prop :=
  ∀ (s : State) (addr other : Nat) (v w : Byte),
    (s.poke addr v).peek addr = v ∧
    (other ≠ addr → (s.poke addr v).peek other = s.peek other) ∧
    (Memory.wf s.par.sentinel s.mem → addr < 0x10000 → other < 0x10000 →
      (s.poke addr (s.peek addr) = s) ∧
      ((s.poke addr v).poke addr w = s.poke addr w) ∧
      (other ≠ addr → (s.poke addr v).poke other w = (s.poke other w).poke addr v))

/-- Equal bytes are equal data: two memories in canonical form that read the same at every address are the same list. -/
def Obligations.CanonicalMemoriesWithEqualBytesAreEqual : Prop :=
  ∀ (fill : Byte) (m m' : Memory), Memory.wf fill m → Memory.wf fill m' →
    (∀ addr, Memory.read fill m addr = Memory.read fill m' addr) → m = m'

/-! ## Operands and pair views -/

/-- R23: a pair view reads the first-named register as its high byte, and a write through it updates both halves and
nothing else; a later 8-bit write to one half changes the pair. -/
def Obligations.PairViewsAreTheirTwoRegisters : Prop :=
  ∀ (s : State) (w : Word) (v : Byte),
    s.bc.toNat = s.b.toNat * 256 + s.c.toNat ∧ s.de.toNat = s.d.toNat * 256 + s.e.toNat ∧
    s.hl.toNat = s.h.toNat * 256 + s.l.toNat ∧
    s.setBc w = { s with b := w.extractLsb' 8 8, c := w.extractLsb' 0 8 } ∧ (s.setBc w).bc = w ∧
    s.setDe w = { s with d := w.extractLsb' 8 8, e := w.extractLsb' 0 8 } ∧ (s.setDe w).de = w ∧
    s.setHl w = { s with h := w.extractLsb' 8 8, l := w.extractLsb' 0 8 } ∧ (s.setHl w).hl = w ∧
    ((s.setHl w).setReg .l v).hl = w.extractLsb' 8 8 ++ v

/-- R24, R28: F reads as `Z*128 + N*64 + Hf*32 + Cy*16`, its low nibble reads 0 in every state, and a write through AF
keeps exactly the four defined bits. -/
def Obligations.FlagByteHasFourBits : Prop :=
  ∀ (s : State) (w : Word),
    s.flags.toByte.toNat = (if s.flags.z then 128 else 0) + (if s.flags.n then 64 else 0) +
      (if s.flags.h then 32 else 0) + (if s.flags.c then 16 else 0) ∧
    s.flags.toByte &&& 0x0F = 0 ∧
    s.af = s.a ++ s.flags.toByte ∧
    (s.setAf w).a = w.extractLsb' 8 8 ∧
    (s.setAf w).flags.toByte = w.extractLsb' 0 8 &&& 0xF0 ∧
    s.setAf w = { s with a := (s.setAf w).a, flags := (s.setAf w).flags }

/-- R21, R22, R25: each register name is its own field, the eight operand indices name B, C, D, E, H, L, (HL), A in that order,
and the operand accessor reads and writes a register, or the byte at HL, HL read when it runs. That index 6 has no register
behind it is the spec's reading (D2), and that a write fails at a `ScanLine` port, which `Writable` shuts out, is its own
choice (D9, notes/assumptions/9.md). -/
def Obligations.OperandAccessorIsRegisterOrByteAtHl : Prop :=
  ∀ (s : State) (r : Reg8) (v : Byte),
    (s.reg .b = s.b ∧ s.reg .c = s.c ∧ s.reg .d = s.d ∧ s.reg .e = s.e ∧ s.reg .h = s.h ∧ s.reg .l = s.l ∧ s.reg .a = s.a) ∧
    (s.setReg .b v = { s with b := v } ∧ s.setReg .c v = { s with c := v } ∧ s.setReg .d v = { s with d := v } ∧
      s.setReg .e v = { s with e := v } ∧ s.setReg .h v = { s with h := v } ∧ s.setReg .l v = { s with l := v } ∧
      s.setReg .a v = { s with a := v }) ∧
    (operandAt 0 = .reg .b ∧ operandAt 1 = .reg .c ∧ operandAt 2 = .reg .d ∧ operandAt 3 = .reg .e ∧
      operandAt 4 = .reg .h ∧ operandAt 5 = .reg .l ∧ operandAt 6 = .hlInd ∧ operandAt 7 = .reg .a) ∧
    s.readOperand (.reg r) = .ok (s.reg r) ∧
    (∃ t, s.writeOperand (.reg r) v = .ok t ∧ t.reg r = v ∧ (∀ q, q ≠ r → t.reg q = s.reg q) ∧
      t.flags = s.flags ∧ t.pc = s.pc ∧ s.SameBeyondRegisters t) ∧
    s.readOperand .hlInd = s.memRead s.hl.toNat ∧
    s.writeOperand .hlInd v = s.memWrite s.hl.toNat v ∧
    (s.Readable s.hl.toNat ↔ ∃ w, s.readOperand .hlInd = .ok w) ∧
    (s.Writable s.hl.toNat ↔ ∃ t, s.writeOperand .hlInd v = .ok t)

/-! ## Moves and loads -/

/-- R121: LD r,r' copies source to destination for all 49 register forms; every other register, the flags and everything
else is unchanged, and PC advances by 1. -/
def Obligations.RegisterMoveCopies : Prop :=
  ∀ (rd rs : Reg8) (s : State),
    (∀ b1 b2, classify (0b01#2 ++ rd.code ++ rs.code) b1 b2 = .ldRR rd rs) ∧
    ∃ t, exec (.ldRR rd rs) s = .next t ∧ t.reg rd = s.reg rs ∧ (∀ q, q ≠ rd → t.reg q = s.reg q) ∧
      t.flags = s.flags ∧ t.pc = s.pc + 1 ∧ s.SameBeyondRegisters t

/-- R122: LD r,(HL), with the address HL holds before the write, and the error of the read where it fails. -/
def Obligations.LoadFromHlIndirect : Prop :=
  ∀ (rd : Reg8) (s : State),
    (∀ b1 b2, classify (0b01#2 ++ rd.code ++ 0b110#3) b1 b2 = .ldRHl rd) ∧
    (∀ e, s.memRead s.hl.toNat = .error e → exec (.ldRHl rd) s = .fault e) ∧
    (s.Readable s.hl.toNat → ∃ v t, s.memRead s.hl.toNat = .ok v ∧ exec (.ldRHl rd) s = .next t ∧ t.reg rd = v ∧
      (∀ q, q ≠ rd → t.reg q = s.reg q) ∧ t.flags = s.flags ∧ t.pc = s.pc + 1 ∧ s.SameBeyondRegisters t)

/-- R123: LD (HL),r, and the error of the write where it fails. -/
def Obligations.StoreToHlIndirect : Prop :=
  ∀ (rs : Reg8) (s : State),
    (∀ b1 b2, classify (0b01110#5 ++ rs.code) b1 b2 = .ldHlR rs) ∧
    (∀ e, s.memWrite s.hl.toNat (s.reg rs) = .error e → exec (.ldHlR rs) s = .fault e) ∧
    (s.Writable s.hl.toNat → ∃ t, exec (.ldHlR rs) s = .next t ∧ s.StoredByte t s.hl.toNat (s.reg rs) ∧
      t = { s with mem := t.mem, pc := s.pc + 1 })

/-- R124, R133: the immediate loads write the register or the pair, advance PC by their size and change nothing else;
BC, DE and HL take both halves at once. The rows of the pairs and the operand field of LD r,d8 are the spec's own inference (D15,
D43) and are not stated here. -/
def Obligations.ImmediateLoadsWriteTheirRegister : Prop :=
  ∀ (s : State) (rd : Reg8) (n : Byte) (w : Word),
    (∃ t, exec (.ldRD8 rd n) s = .next t ∧ t.reg rd = n ∧ (∀ q, q ≠ rd → t.reg q = s.reg q) ∧
      t.flags = s.flags ∧ t.pc = s.pc + 2 ∧ s.SameBeyondRegisters t) ∧
    exec (.ldRrD16 .bc w) s = .next { s with b := w.extractLsb' 8 8, c := w.extractLsb' 0 8, pc := s.pc + 3 } ∧
    exec (.ldRrD16 .de w) s = .next { s with d := w.extractLsb' 8 8, e := w.extractLsb' 0 8, pc := s.pc + 3 } ∧
    exec (.ldRrD16 .hl w) s = .next { s with h := w.extractLsb' 8 8, l := w.extractLsb' 0 8, pc := s.pc + 3 } ∧
    exec (.ldRrD16 .sp w) s = .next { s with sp := w, pc := s.pc + 3 }

/-- R129, R130, R226, R228: the loads of A from (BC), (DE), the high page and an absolute address complete where the address
can be read, write A and PC and nothing else, and otherwise end in the error of the read. -/
def Obligations.AccumulatorLoadsReadTheirAddress : Prop :=
  ∀ (s : State) (n : Byte) (a : Word),
    (∀ (i : Instr) (addr : Nat) (size : Word),
      (i = .ldABc ∧ addr = s.b.toNat * 256 + s.c.toNat ∧ size = 1) ∨
      (i = .ldADe ∧ addr = s.d.toNat * 256 + s.e.toNat ∧ size = 1) ∨
      (i = .ldhAA8 n ∧ addr = 0xFF00 + n.toNat ∧ size = 2) ∨
      (i = .ldAA16 a ∧ addr = a.toNat ∧ size = 3) →
      (∀ e, s.memRead addr = .error e → exec i s = .fault e) ∧
      (s.Readable addr → ∃ v, s.memRead addr = .ok v ∧ exec i s = .next { s with a := v, pc := s.pc + size }))

/-- R125, R126, R134, R225, R227: the stores to (BC), (DE), (HL), the high page and an absolute address complete where the
address can be written, store the one byte and change no register but PC, and otherwise end in the error of the write. -/
def Obligations.StoresWriteOneByteAtTheirAddress : Prop :=
  ∀ (s : State) (n : Byte) (a : Word),
    (∀ (i : Instr) (addr : Nat) (v : Byte) (size : Word),
      (i = .ldBcA ∧ addr = s.b.toNat * 256 + s.c.toNat ∧ v = s.a ∧ size = 1) ∨
      (i = .ldDeA ∧ addr = s.d.toNat * 256 + s.e.toNat ∧ v = s.a ∧ size = 1) ∨
      (i = .ldHlD8 n ∧ addr = s.h.toNat * 256 + s.l.toNat ∧ v = n ∧ size = 2) ∨
      (i = .ldhA8A n ∧ addr = 0xFF00 + n.toNat ∧ v = s.a ∧ size = 2) ∨
      (i = .ldA16A a ∧ addr = a.toNat ∧ v = s.a ∧ size = 3) →
      (∀ e, s.memWrite addr v = .error e → exec i s = .fault e) ∧
      (s.Writable addr → ∃ t, exec i s = .next t ∧ s.StoredByte t addr v ∧
        t = { s with mem := t.mem, pc := s.pc + size }))

/-- R127, R128, R131, R132: the forms (HL+) and (HL-) transfer A at the old HL, then move HL by one with wraparound; no flag
changes, and if the access fails nothing does. -/
def Obligations.IndexedFormsMoveHlAfterTheTransfer : Prop :=
  ∀ (s : State) (i : Instr) (hl' : Word),
    (((i = .ldHlIncA ∧ hl'.toNat = (s.hl.toNat + 1) % 65536) ∨
      (i = .ldHlDecA ∧ hl'.toNat = (s.hl.toNat + 65535) % 65536)) →
      (∀ e, s.memWrite s.hl.toNat s.a = .error e → exec i s = .fault e) ∧
      (s.Writable s.hl.toNat → ∃ t, exec i s = .next t ∧ s.StoredByte t s.hl.toNat s.a ∧ t.hl = hl' ∧
        t = { s with h := t.h, l := t.l, mem := t.mem, pc := s.pc + 1 })) ∧
    (((i = .ldAHlInc ∧ hl'.toNat = (s.hl.toNat + 1) % 65536) ∨
      (i = .ldAHlDec ∧ hl'.toNat = (s.hl.toNat + 65535) % 65536)) →
      (∀ e, s.memRead s.hl.toNat = .error e → exec i s = .fault e) ∧
      (s.Readable s.hl.toNat → ∃ v t, s.memRead s.hl.toNat = .ok v ∧ exec i s = .next t ∧ t.hl = hl' ∧
        t = { s with a := v, h := t.h, l := t.l, pc := s.pc + 1 }))

/-! ## Increment and decrement -/

/-- R145, R146: the 16-bit increment and decrement wrap, change their pair and PC, and no flag. -/
def Obligations.PairIncrementAndDecrementWrap : Prop :=
  ∀ (s : State) (p : Pair), ∃ t u,
    exec (.incRr p) s = .next t ∧ (t.pair p).toNat = ((s.pair p).toNat + 1) % 65536 ∧
    exec (.decRr p) s = .next u ∧ (u.pair p).toNat = ((s.pair p).toNat + 65535) % 65536 ∧
    (∀ q, q ≠ p → t.pair q = s.pair q ∧ u.pair q = s.pair q) ∧
    t = { s with b := t.b, c := t.c, d := t.d, e := t.e, h := t.h, l := t.l, sp := t.sp, pc := s.pc + 1 } ∧
    u = { s with b := u.b, c := u.c, d := u.d, e := u.e, h := u.h, l := u.l, sp := u.sp, pc := s.pc + 1 }

/-- R147 to R150: the 8-bit increment and decrement of a register: the wrapped result, Zero, Subtract and HalfCarry from it,
Carry and everything else unchanged. The operand field is the spec's own inference (D43) and is not stated here. -/
def Obligations.RegisterIncrementAndDecrement : Prop :=
  ∀ (s : State) (rd : Reg8), ∃ t u,
    exec (.incR rd) s = .next t ∧ (t.reg rd).toNat = ((s.reg rd).toNat + 1) % 256 ∧
    t.flags = ⟨decide ((t.reg rd).toNat = 0), false, decide ((t.reg rd).toNat % 16 = 0), s.flags.c⟩ ∧
    exec (.decR rd) s = .next u ∧ (u.reg rd).toNat = ((s.reg rd).toNat + 255) % 256 ∧
    u.flags = ⟨decide ((u.reg rd).toNat = 0), true, decide ((u.reg rd).toNat % 16 = 15), s.flags.c⟩ ∧
    (∀ q, q ≠ rd → t.reg q = s.reg q ∧ u.reg q = s.reg q) ∧
    t.pc = s.pc + 1 ∧ u.pc = s.pc + 1 ∧ s.SameBeyondRegisters t ∧ s.SameBeyondRegisters u

/-- R151, R152: INC (HL) and DEC (HL) read, write back and set the flags of the result; where the read fails, or the write
fails after it, the error is the answer. -/
def Obligations.MemoryIncrementAndDecrement : Prop :=
  ∀ (s : State),
    (∀ e, s.memRead s.hl.toNat = .error e → exec .incHl s = .fault e ∧ exec .decHl s = .fault e) ∧
    (∀ v e, s.memRead s.hl.toNat = .ok v →
      (s.memWrite s.hl.toNat (v + 1) = .error e → exec .incHl s = .fault e) ∧
      (s.memWrite s.hl.toNat (v - 1) = .error e → exec .decHl s = .fault e)) ∧
    (s.Writable s.hl.toNat → ∃ v t u, s.memRead s.hl.toNat = .ok v ∧
      exec .incHl s = .next t ∧ s.StoredByte t s.hl.toNat (v + 1) ∧
      t = { s with
                   mem := t.mem, pc := s.pc + 1,
                   flags := ⟨decide (v = 0xFF), false, decide (v.toNat % 16 = 15), s.flags.c⟩ } ∧
      exec .decHl s = .next u ∧ s.StoredByte u s.hl.toNat (v - 1) ∧
      u = { s with
                   mem := u.mem, pc := s.pc + 1,
                   flags := ⟨decide (v = 0x01), true, decide (v.toNat % 16 = 0), s.flags.c⟩ })

/-! ## The ALU row -/

/-- R156, R160, R161: ADD and ADC on a readable operand: the wrapped sum, and Zero, Subtract, HalfCarry and Carry from the
comparison of the result with the old accumulator. That ADC's flags come from a and r alone is the spec's decision D35. -/
def Obligations.AddAndAdcResultAndFlags : Prop :=
  ∀ (s : State) (src : Operand8),
    (∀ e, s.readOperand src = .error e → exec (.addAR src) s = .fault e ∧ exec (.adcAR src) s = .fault e) ∧
    ∀ v, s.readOperand src = .ok v →
    (∃ r : Byte, r.toNat = (s.a.toNat + v.toNat) % 256 ∧
      exec (.addAR src) s = .next { s with
        a := r, pc := s.pc + 1,
        flags := ⟨decide (r.toNat = 0), false, decide (r.toNat % 16 < s.a.toNat % 16), decide (r.toNat < s.a.toNat)⟩ }) ∧
    (∃ r : Byte, r.toNat = (s.a.toNat + v.toNat + s.flags.c.toNat) % 256 ∧
      exec (.adcAR src) s = .next { s with
        a := r, pc := s.pc + 1,
        flags := ⟨decide (r.toNat = 0), false, decide (r.toNat % 16 < s.a.toNat % 16), decide (r.toNat < s.a.toNat)⟩ })

/-- R157, R162, R163: SUB and SBC on a readable operand. That SBC's flags come from a and r alone is D35. -/
def Obligations.SubAndSbcResultAndFlags : Prop :=
  ∀ (s : State) (src : Operand8),
    (∀ e, s.readOperand src = .error e → exec (.subR src) s = .fault e ∧ exec (.sbcAR src) s = .fault e) ∧
    ∀ v, s.readOperand src = .ok v →
    (∃ r : Byte, r.toNat = (s.a.toNat + 256 - v.toNat) % 256 ∧
      exec (.subR src) s = .next { s with
        a := r, pc := s.pc + 1,
        flags := ⟨decide (r.toNat = 0), true, decide (s.a.toNat % 16 < r.toNat % 16), decide (s.a.toNat < r.toNat)⟩ }) ∧
    (∃ r : Byte, r.toNat = (s.a.toNat + 512 - v.toNat - s.flags.c.toNat) % 256 ∧
      exec (.sbcAR src) s = .next { s with
        a := r, pc := s.pc + 1,
        flags := ⟨decide (r.toNat = 0), true, decide (s.a.toNat % 16 < r.toNat % 16), decide (s.a.toNat < r.toNat)⟩ })

/-- R158, R159, R164 to R166, with their encodings (R94): AND, XOR and OR, for every operand, the error of its read where it
fails, and the source's property that XOR A gives 0 and sets Zero whatever A was. -/
def Obligations.LogicRowResultAndFlags : Prop :=
  ∀ (s : State) (src : Operand8),
    (∀ b1 b2, classify (0b10100#5 ++ src.code) b1 b2 = .andR src ∧ classify (0b10101#5 ++ src.code) b1 b2 = .xorR src ∧
      classify (0b10110#5 ++ src.code) b1 b2 = .orR src) ∧
    (∀ v, s.readOperand src = .ok v →
      exec (.andR src) s = .next { s with a := s.a &&& v, pc := s.pc + 1, flags := ⟨s.a &&& v == 0, false, true, false⟩ } ∧
      exec (.xorR src) s = .next { s with a := s.a ^^^ v, pc := s.pc + 1, flags := ⟨s.a ^^^ v == 0, false, false, false⟩ } ∧
      exec (.orR src) s = .next { s with a := s.a ||| v, pc := s.pc + 1, flags := ⟨s.a ||| v == 0, false, false, false⟩ }) ∧
    (∀ e, s.readOperand src = .error e →
      exec (.andR src) s = .fault e ∧ exec (.xorR src) s = .fault e ∧ exec (.orR src) s = .fault e) ∧
    exec (.xorR (.reg .a)) s = .next { s with a := 0, pc := s.pc + 1, flags := ⟨true, false, false, false⟩ }

/-- R167, R168: the two compares set the flags of the subtraction, store no result, and change nothing but the flags and
PC; Zero says a = v and Carry says a < v. -/
def Obligations.CompareSetsFlagsOnly : Prop :=
  ∀ (s : State) (src : Operand8) (n : Byte),
    (∀ e, s.readOperand src = .error e → exec (.cpR src) s = .fault e) ∧
    (∀ v, s.readOperand src = .ok v →
      exec (.cpR src) s = .next { s with
        pc := s.pc + 1,
        flags := ⟨decide (s.a = v), true, decide (s.a.toNat % 16 < v.toNat % 16), decide (s.a.toNat < v.toNat)⟩ }) ∧
    exec (.cpD8 n) s = .next { s with
      pc := s.pc + 2,
      flags := ⟨decide (s.a = n), true, decide (s.a.toNat % 16 < n.toNat % 16), decide (s.a.toNat < n.toNat)⟩ }

/-- R170: with no carry-in, Carry and HalfCarry after an add or subtract are the true carry or borrow; with a carry-in they
are not exactly when the operand is 0xFF (Carry) or its low nibble 0x0F (HalfCarry), where the rule gives 0. The spec marks the
characterisation as derived. -/
def Obligations.CarryRuleDivergesExactlyAtFF : Prop :=
  ∀ (s t : State) (src : Operand8) (v : Byte), s.readOperand src = .ok v →
    (exec (.addAR src) s = .next t →
      (t.flags.c = true ↔ 256 ≤ s.a.toNat + v.toNat) ∧ (t.flags.h = true ↔ 16 ≤ s.a.toNat % 16 + v.toNat % 16)) ∧
    (exec (.subR src) s = .next t →
      (t.flags.c = true ↔ s.a.toNat < v.toNat) ∧ (t.flags.h = true ↔ s.a.toNat % 16 < v.toNat % 16)) ∧
    (exec (.adcAR src) s = .next t →
      (t.flags.c = true ↔ 256 ≤ s.a.toNat + v.toNat + s.flags.c.toNat ∧ ¬ (s.flags.c = true ∧ v = 0xFF)) ∧
      (t.flags.h = true ↔
        16 ≤ s.a.toNat % 16 + v.toNat % 16 + s.flags.c.toNat ∧ ¬ (s.flags.c = true ∧ v.toNat % 16 = 15))) ∧
    (exec (.sbcAR src) s = .next t →
      (t.flags.c = true ↔ s.a.toNat < v.toNat + s.flags.c.toNat ∧ ¬ (s.flags.c = true ∧ v = 0xFF)) ∧
      (t.flags.h = true ↔
        s.a.toNat % 16 < v.toNat % 16 + s.flags.c.toNat ∧ ¬ (s.flags.c = true ∧ v.toNat % 16 = 15)))

/-! ## Stack, calls, returns -/

/-- R175, R177: a push completes where the two bytes below SP can be written: SP falls by 2, the low byte lies at the new SP and the
high byte above it, and nothing else changes but PC. Where the first write, of the low byte at the new SP, fails, or the second
fails after it, that error is the answer; that the low byte is first is the spec's own choice (D14, notes/assumptions/8.md). -/
def Obligations.PushStoresLittleEndianBelowSp : Prop :=
  ∀ (s : State) (i : Instr) (w : Word),
    ((i = .pushBc ∧ w = s.b ++ s.c) ∨ (i = .pushDe ∧ w = s.d ++ s.e) ∨ (i = .pushHl ∧ w = s.h ++ s.l) ∨
      (i = .pushAf ∧ w = s.a ++ s.flags.toByte)) →
    (∀ e, { s with sp := s.sp - 2 }.memWrite (s.sp - 2).toNat (w.extractLsb' 0 8) = .error e → exec i s = .fault e) ∧
    (∀ u e, { s with sp := s.sp - 2 }.memWrite (s.sp - 2).toNat (w.extractLsb' 0 8) = .ok u →
      u.memWrite ((s.sp - 2).toNat + 1) (w.extractLsb' 8 8) = .error e → exec i s = .fault e) ∧
    (s.Pushable →
    ∃ t, exec i s = .next t ∧ t = { s with sp := s.sp - 2, mem := t.mem, pc := s.pc + 1 } ∧
      (s.TakesByte (s.sp - 2).toNat → s.TakesByte ((s.sp - 2).toNat + 1) →
        t.peek (s.sp - 2).toNat = w.extractLsb' 0 8 ∧ t.peek ((s.sp - 2).toNat + 1) = w.extractLsb' 8 8) ∧
      (s.PlainTarget (s.sp - 2).toNat → s.PlainTarget ((s.sp - 2).toNat + 1) →
        ∀ addr, addr ≠ (s.sp - 2).toNat → addr ≠ (s.sp - 2).toNat + 1 → t.peek addr = s.peek addr))

/-- R176, R178, R179: a pop completes where the two bytes at SP can be read: the register pair takes the little-endian word, POP AF
masks the flag byte to its four bits, SP rises by 2, and memory and everything else is unchanged. Where the first read, of the low
byte, fails, or the second fails after it, that error is the answer (the order is the spec's own choice, D14,
notes/assumptions/8.md). -/
def Obligations.PopLoadsLittleEndianAtSp : Prop :=
  ∀ (s : State),
    (∀ i ∈ [Instr.popBc, .popDe, .popHl, .popAf],
      (∀ e, s.memRead s.sp.toNat = .error e → exec i s = .fault e) ∧
      (∀ lo e, s.memRead s.sp.toNat = .ok lo → s.memRead (s.sp.toNat + 1) = .error e → exec i s = .fault e)) ∧
    (s.Poppable →
    ∃ lo hi : Byte, s.memRead s.sp.toNat = .ok lo ∧ s.memRead (s.sp.toNat + 1) = .ok hi ∧
      exec .popBc s = .next { s with b := hi, c := lo, sp := s.sp + 2, pc := s.pc + 1 } ∧
      exec .popDe s = .next { s with d := hi, e := lo, sp := s.sp + 2, pc := s.pc + 1 } ∧
      exec .popHl s = .next { s with h := hi, l := lo, sp := s.sp + 2, pc := s.pc + 1 } ∧
      exec .popAf s = .next { s with
        a := hi, sp := s.sp + 2, pc := s.pc + 1,
        flags := ⟨lo.getLsbD 7, lo.getLsbD 6, lo.getLsbD 5, lo.getLsbD 4⟩ })

/-- A push, a call or a taken conditional call with SP = 0x0001 and a pop or return with SP = 0xFFFF raise `ConfigurationError` at 0x10000: the high byte's address
is not wrapped. The spec's own choice (D12, notes/assumptions/8.md). -/
def Obligations.StackAccessesPastTheEndAreConfigurationErrors : Prop :=
  ∀ (s : State),
    (s.sp = 0x0001 → ∀ i ∈ [Instr.pushBc, .pushDe, .pushHl, .pushAf],
      exec i s = .fault (.configurationError 0x10000 s.pc)) ∧
    (s.sp = 0x0001 → ∀ a, exec (.call a) s = .fault (.configurationError 0x10000 s.pc) ∧
      (s.flags.z = false → exec (.callNz a) s = .fault (.configurationError 0x10000 s.pc)) ∧
      (s.flags.z = true → exec (.callZ a) s = .fault (.configurationError 0x10000 s.pc)) ∧
      (s.flags.c = false → exec (.callNc a) s = .fault (.configurationError 0x10000 s.pc)) ∧
      (s.flags.c = true → exec (.callC a) s = .fault (.configurationError 0x10000 s.pc))) ∧
    (s.sp = 0xFFFF → ∀ i ∈ [Instr.popBc, .popDe, .popHl, .popAf, .ret, .reti],
      exec i s = .fault (.configurationError 0x10000 s.pc))

/-- R180 to R185: CALL, and a conditional call whose condition holds, push the address of the next instruction and go to the
target; a conditional call whose condition fails falls through with no stack effect. No flag changes. Where the first write of a
taken call's push, of the low byte, fails, or the second fails after it, that error is the answer (the order is the spec's own
choice, D14, notes/assumptions/8.md). -/
def Obligations.CallsPushTheReturnAddress : Prop :=
  ∀ (s : State) (a : Word) (i : Instr) (taken : Bool),
    ((i = .call a ∧ taken = true) ∨ (i = .callNz a ∧ taken = !s.flags.z) ∨ (i = .callZ a ∧ taken = s.flags.z) ∨
      (i = .callNc a ∧ taken = !s.flags.c) ∨ (i = .callC a ∧ taken = s.flags.c)) →
    (taken = false → exec i s = .next { s with pc := s.pc + 3 }) ∧
    (taken = true → ∀ e, { s with sp := s.sp - 2 }.memWrite (s.sp - 2).toNat ((s.pc + 3).extractLsb' 0 8) = .error e →
      exec i s = .fault e) ∧
    (taken = true → ∀ u e, { s with sp := s.sp - 2 }.memWrite (s.sp - 2).toNat ((s.pc + 3).extractLsb' 0 8) = .ok u →
      u.memWrite ((s.sp - 2).toNat + 1) ((s.pc + 3).extractLsb' 8 8) = .error e → exec i s = .fault e) ∧
    (taken = true → s.Pushable →
      ∃ t, exec i s = .next t ∧ t = { s with sp := s.sp - 2, mem := t.mem, pc := a } ∧
        (s.TakesByte (s.sp - 2).toNat → s.TakesByte ((s.sp - 2).toNat + 1) →
          (t.peek (s.sp - 2).toNat).toNat + 256 * (t.peek ((s.sp - 2).toNat + 1)).toNat = (s.pc.toNat + 3) % 65536) ∧
        (s.PlainTarget (s.sp - 2).toNat → s.PlainTarget ((s.sp - 2).toNat + 1) →
          ∀ addr, addr ≠ (s.sp - 2).toNat → addr ≠ (s.sp - 2).toNat + 1 → t.peek addr = s.peek addr))

/-- R186, R187: RET and RETI pop the word at SP into PC; RETI also sets IME; nothing else changes but SP. Where the first read, of
the low byte, fails, or the second fails after it, that error is the answer (the order is the spec's own choice, D14,
notes/assumptions/8.md). -/
def Obligations.ReturnsPopIntoPc : Prop :=
  ∀ (s : State),
    (∀ i ∈ [Instr.ret, .reti],
      (∀ e, s.memRead s.sp.toNat = .error e → exec i s = .fault e) ∧
      (∀ lo e, s.memRead s.sp.toNat = .ok lo → s.memRead (s.sp.toNat + 1) = .error e → exec i s = .fault e)) ∧
    (s.Poppable →
    ∃ lo hi : Byte, s.memRead s.sp.toNat = .ok lo ∧ s.memRead (s.sp.toNat + 1) = .ok hi ∧
      exec .ret s = .next { s with pc := hi ++ lo, sp := s.sp + 2 } ∧
      exec .reti s = .next { s with pc := hi ++ lo, sp := s.sp + 2, ime := true })

/-- A CALL followed by a RET comes back to the instruction after the CALL with SP restored, when the two bytes below SP
are plain storage (R180, R186). -/
def Obligations.CallThenReturnComesBack : Prop :=
  ∀ (s : State) (a : Word), s.sp.toNat ≠ 1 →
    ¬ inWindow (s.sp - 2).toNat → ¬ inWindow ((s.sp - 2).toNat + 1) →
    ∃ t u, exec (.call a) s = .next t ∧ t.pc = a ∧ exec .ret t = .next u ∧ u.pc = s.pc + 3 ∧ u.sp = s.sp ∧
      u = { s with pc := s.pc + 3, mem := u.mem }

/-! ## Jumps, toggles -/

/-- R195 to R202: NOP advances by 1; a relative jump, when its condition holds, adds the signed offset to the address after it,
mod 65536, and falls through otherwise; JP goes to its target. Nothing but PC changes. -/
def Obligations.JumpsMovePcOnly : Prop :=
  ∀ (s : State) (off : Byte) (a : Word),
    exec .nop s = .next { s with pc := s.pc + 1 } ∧
    exec (.jp a) s = .next { s with pc := a } ∧
    (∀ (i : Instr) (taken : Bool),
      ((i = .jr off ∧ taken = true) ∨ (i = .jrNz off ∧ taken = !s.flags.z) ∨ (i = .jrZ off ∧ taken = s.flags.z) ∨
        (i = .jrNc off ∧ taken = !s.flags.c) ∨ (i = .jrC off ∧ taken = s.flags.c)) →
      ∃ t, exec i s = .next t ∧ t = { s with pc := t.pc } ∧
        (taken = false → t.pc = s.pc + 2) ∧
        (taken = true → (t.pc.toNat : Int) = ((s.pc.toNat : Int) + 2 + off.toInt) % 65536))

/-! ## The prefixed sub-table -/

/-- R212, R213: RLC and RL of a register: the rotated byte, Carry the old bit 7, PC + 2, every other register, memory and
everything else unchanged; Z, N and Hf are whatever was drawn, and three draws are used up (notes/assumptions/5.md). -/
def Obligations.RegisterRotatesMoveBitSevenToCarry : Prop :=
  ∀ (s : State) (r : Reg8), ∃ t u,
    exec (.rlcR (.reg r)) s = .next t ∧
    (t.reg r).toNat = (2 * (s.reg r).toNat + (s.reg r).toNat / 128) % 256 ∧
    t.flags.c = decide (128 ≤ (s.reg r).toNat) ∧
    exec (.rlR (.reg r)) s = .next u ∧
    (u.reg r).toNat = (2 * (s.reg r).toNat + s.flags.c.toNat) % 256 ∧
    u.flags.c = decide (128 ≤ (s.reg r).toNat) ∧
    (∀ q, q ≠ r → t.reg q = s.reg q ∧ u.reg q = s.reg q) ∧
    (∀ x ∈ [t, u], x.pc = s.pc + 2 ∧ x.sp = s.sp ∧ x.ime = s.ime ∧ x.draws = s.draws + 3 ∧ s.SameSession x ∧ s.SameBytes x)

/-- R211, R212, R213 on (HL): as on a register, with the byte written back at HL; the error of the read, or of the write after it,
where one fails. Z, N and Hf are whatever was drawn, and three draws are used up, which is the model's own count of them
(notes/assumptions/5.md). -/
def Obligations.MemoryRotatesMoveBitSevenToCarry : Prop :=
  ∀ (s : State),
    (∀ e, s.memRead s.hl.toNat = .error e → exec (.rlcR .hlInd) s = .fault e ∧ exec (.rlR .hlInd) s = .fault e) ∧
    (∀ (v r : Byte) (e : Fault), s.memRead s.hl.toNat = .ok v →
      (r.toNat = (2 * v.toNat + v.toNat / 128) % 256 → s.memWrite s.hl.toNat r = .error e →
        exec (.rlcR .hlInd) s = .fault e) ∧
      (r.toNat = (2 * v.toNat + s.flags.c.toNat) % 256 → s.memWrite s.hl.toNat r = .error e →
        exec (.rlR .hlInd) s = .fault e)) ∧
    (s.Writable s.hl.toNat → ∃ (v r r' : Byte) (t u : State), s.memRead s.hl.toNat = .ok v ∧
      r.toNat = (2 * v.toNat + v.toNat / 128) % 256 ∧ r'.toNat = (2 * v.toNat + s.flags.c.toNat) % 256 ∧
      exec (.rlcR .hlInd) s = .next t ∧ s.StoredByte t s.hl.toNat r ∧ t.flags.c = v.getLsbD 7 ∧
      t = { s with mem := t.mem, flags := t.flags, draws := s.draws + 3, pc := s.pc + 2 } ∧
      exec (.rlR .hlInd) s = .next u ∧ s.StoredByte u s.hl.toNat r' ∧ u.flags.c = v.getLsbD 7 ∧
      u = { s with mem := u.mem, flags := u.flags, draws := s.draws + 3, pc := s.pc + 2 })

/-- R213: nine applications of RL restore the operand and Carry. -/
def Obligations.NineRotatesThroughCarryRestore : Prop :=
  ∀ (s : State) (r : Reg8), ∃ t, execTimes 9 (.rlR (.reg r)) s = .next t ∧ (∀ q, t.reg q = s.reg q) ∧
    t.flags.c = s.flags.c ∧ t.pc = s.pc + 18 ∧ s.SameBytes t

/-- R214: BIT 7,H sets Zero iff bit 7 of H is clear, clears Subtract, sets HalfCarry, leaves Carry and everything else. That the
register is H is the spec's own inference (D24). -/
def Obligations.BitTestOfH : Prop :=
  ∀ (s : State), exec .bit7H s = .next { s with
    pc := s.pc + 2,
    flags := ⟨decide (s.h.toNat < 128), false, true, s.flags.c⟩ }

/-- R215, R216, with their encodings (rows 16 to 23 and 24 to 31): RES clears and SET sets the numbered bit of the operand and no
other, no flag changes, and where the operand is (HL) the byte is written back at HL, or the error of the access is the answer. -/
def Obligations.BitResetAndSetOneBit : Prop :=
  ∀ (s : State) (b : BitVec 3) (dst : Operand8),
    (∀ b2, classify 0xCB (0b10#2 ++ b ++ dst.code) b2 = .resBR b dst ∧
      classify 0xCB (0b11#2 ++ b ++ dst.code) b2 = .setBR b dst) ∧
    (∀ e, s.readOperand dst = .error e → exec (.resBR b dst) s = .fault e ∧ exec (.setBR b dst) s = .fault e) ∧
    (∀ v e, s.readOperand dst = .ok v →
      (s.writeOperand dst (v &&& ~~~ ((1 : Byte) <<< b.toNat)) = .error e → exec (.resBR b dst) s = .fault e) ∧
      (s.writeOperand dst (v ||| (1 : Byte) <<< b.toNat) = .error e → exec (.setBR b dst) s = .fault e)) ∧
    (s.OperandModifiable dst → ∃ (v r r' : Byte) (t u : State), s.readOperand dst = .ok v ∧
      (∀ k, k < 8 → r.getLsbD k = (v.getLsbD k && k != b.toNat)) ∧
      (∀ k, k < 8 → r'.getLsbD k = (v.getLsbD k || k == b.toNat)) ∧
      s.writeOperand dst r = .ok t ∧ exec (.resBR b dst) s = .next { t with pc := s.pc + 2 } ∧
      s.writeOperand dst r' = .ok u ∧ exec (.setBR b dst) s = .next { u with pc := s.pc + 2 })

/-! ## What a step does -/

/-- A step runs the decoded instruction: from a state whose fetch reads these bytes (R302, R303), and whatever they decode
to, the step is that instruction on the state with `prev_pc` recorded. -/
def Obligations.StepRunsTheDecodedInstruction : Prop :=
  ∀ (s : State) (op b1 b2 : Byte) (i : Instr), s.Fetches op b1 b2 → decode [op, b1, b2] = .ok i →
    step s = exec i { s with prevPc := some s.pc }

/-- The encoding of an implemented instruction, lying in plain storage at PC, runs: under the constraint on `SENTINEL` no
implemented instruction begins with it (R247, R248, R303). -/
def Obligations.PlacedInstructionRuns : Prop :=
  ∀ (s : State) (i : Instr) (op b1 b2 : Byte) (tail : List Byte),
    sentinelLegal s.par.sentinel → s.fault = none → s.prevPc ≠ some s.pc →
    (s.pc.toNat ≤ 0xFEFD ∨ 0xFF80 ≤ s.pc.toNat ∧ s.pc.toNat ≤ 0xFFFD) →
    s.peek s.pc.toNat = op → s.peek (s.pc.toNat + 1) = b1 → s.peek (s.pc.toNat + 2) = b2 →
    i.wf = true → encode i ++ tail = [op, b1, b2] → op ∉ unassigned →
    step s = exec i { s with prevPc := some s.pc }

/-- The errors before execution, in the order of R267: each is the answer when the earlier checks pass. The order is the
spec's own choice (D28, D29). -/
def Obligations.StepErrorsInPriorityOrder : Prop :=
  ∀ (s : State), s.fault = none →
    (s.prevPc = some s.pc → step s = .fault (.invariantViolation s.pc)) ∧
    (s.prevPc ≠ some s.pc → 0xFFFD < s.pc.toNat → step s = .fault (.configurationError 0x10000 s.pc)) ∧
    (s.prevPc ≠ some s.pc → s.pc.toNat ≤ 0xFFFD →
      (∀ e, s.memRead s.pc.toNat = .error e → step s = .fault e) ∧
      (∀ op e, s.memRead s.pc.toNat = .ok op → s.memRead (s.pc.toNat + 1) = .error e → step s = .fault e) ∧
      (∀ op b1 e, s.memRead s.pc.toNat = .ok op → s.memRead (s.pc.toNat + 1) = .ok b1 →
        s.memRead (s.pc.toNat + 2) = .error e → step s = .fault e) ∧
      (∀ op b1 b2, s.memRead s.pc.toNat = .ok op → s.memRead (s.pc.toNat + 1) = .ok b1 →
        s.memRead (s.pc.toNat + 2) = .ok b2 → op = s.par.sentinel → step s = .fault (.invalidOpcode s.pc)))

/-- R304: after a step that left PC where it was, the next step raises `InvariantViolation`. That the check comes before the
fetch, so that this error wins whatever bytes now lie at PC, is the spec's own choice (R302, D28, D29, notes/assumptions/15.md). -/
def Obligations.UnmovedPcIsFatalAtTheNextStep : Prop :=
  ∀ (s t : State), step s = .next t → t.pc = s.pc → step t = .fault (.invariantViolation s.pc)

/-- R305: an instruction that leaves PC unchanged is a relative jump by -2 that is taken, or JP, a taken CALL or a return to
its own address. The spec marks the list as derived. -/
def Obligations.OnlyTransfersCanLeavePcUnchanged : Prop :=
  ∀ (s t : State) (i : Instr), exec i s = .next t → t.pc = s.pc →
    i ∈ [Instr.jr 0xFE, .jrNz 0xFE, .jrZ 0xFE, .jrNc 0xFE, .jrC 0xFE] ∨
    i ∈ [Instr.jp s.pc, .call s.pc, .callNz s.pc, .callZ s.pc, .callNc s.pc, .callC s.pc] ∨
    (i ∈ [Instr.ret, .reti] ∧ s.top16 = .ok s.pc)

/-- The invariant every step keeps: MEM stays in canonical form within its 65,536 addresses, `SENTINEL` keeps its
constraint, and a completed step has recorded its PC, latched no error and left `run` and the parameters alone. -/
def Obligations.EveryStepKeepsTheInvariant : Prop :=
  ∀ (s t : State), s.Inv → step s = .next t →
    t.Inv ∧ t.prevPc = some s.pc ∧ t.fault = none ∧ t.run = s.run ∧ t.par = s.par ∧ s.pc.toNat ≤ 0xFFFD

/-- The invariant holds after power-on for every legal `SENTINEL`, and so at reset (R290, R39). The reset values of the
registers and parameters are the model's choice (notes/assumptions/1.md, 2.md). -/
def Obligations.InvariantHoldsAtReset : Prop :=
  State.reset.Inv ∧
  ∀ (p : Config.Params) (r : Config.ResetRegs) (f : Flags), sentinelLegal p.sentinel → (State.powerOn p r f).Inv

/-- R290: the state after power-on, for every value of the OPEN parameters: PC 0, IME 0, every byte `SENTINEL`, stopped, no
error, no recorded PC; and its first step raises `InvalidOpcode` at 0. PC, IME and MEM at power-on are the spec's own choice
(D3, D4, D31). -/
def Obligations.PowerOnIsAllSentinel : Prop :=
  ∀ (p : Config.Params) (r : Config.ResetRegs) (f : Flags),
    let s := State.powerOn p r f
    s.pc = 0 ∧ s.ime = false ∧ (∀ addr, s.peek addr = p.sentinel) ∧ s.run = .stopped ∧ s.fault = none ∧ s.prevPc = none ∧
    s.par = p ∧ step s = .fault (.invalidOpcode 0)

/-! ## Whole-machine rules -/

/-- No instruction is refused. -/
def Obligations.NoInstructionIsRefused : Prop :=
  ∀ (i : Instr) (s : State) (r : Refusal), exec i s ≠ .refused r ∧ step s ≠ .refused r

/-- R30, R229, R230: EI sets IME and DI clears it, at once (the spec's own choice, D27), with no other effect than PC; beside them RETI alone writes it, setting it;
and nothing reads it: two states that differ only in IME run every instruction alike, up to IME. -/
def Obligations.ImeIsWrittenByThreeAndReadByNone : Prop :=
  ∀ (i : Instr) (s : State),
    exec .di s = .next { s with ime := false, pc := s.pc + 1 } ∧
    exec .ei s = .next { s with ime := true, pc := s.pc + 1 } ∧
    (∀ t, exec .reti s = .next t → t.ime = true) ∧
    (∀ t, exec i s = .next t → i.writesIme = false → t.ime = s.ime) ∧
    ∀ x : Bool,
      (∀ t, exec i s = .next t → ∃ y, exec i { s with ime := x } = .next { t with ime := y }) ∧
      (∀ e, exec i s = .fault e → exec i { s with ime := x } = .fault e)

/-- R29, R33, R61: an instruction outside the list leaves the flags, Carry, SP or the bytes of memory unchanged. -/
def Obligations.OnlyListedInstructionsWriteFlagsSpMemory : Prop :=
  ∀ (i : Instr) (s t : State), exec i s = .next t →
    (i.writesFlags = false → t.flags = s.flags) ∧
    (i.writesCarry = false → t.flags.c = s.flags.c) ∧
    (i.writesSp = false → t.sp = s.sp) ∧
    (i.storesMemory = false → s.SameBytes t)

/-- R32, R84: an implemented instruction that transfers no control advances PC by its size, mod 65536. -/
def Obligations.SequentialInstructionsAdvanceBySize : Prop :=
  ∀ (i : Instr) (s t : State), exec i s = .next t → i.transfersControl = false →
    t.pc.toNat = (s.pc.toNat + i.size) % 65536 ∧ encode i ≠ [] ∧ i.size = (encode i).length

/-! ## The host interface -/

/-- R296: after an injection each byte is the boot image's, else the cartridge's, else `SENTINEL`; PC is 0, `prev_pc` none, and
nothing else changes; the memory is canonical whatever it was. R297 (ii): an image that does not fit is refused with
`ConfigurationError`. The raw copy into the window and that refusal are the spec's own choice (D31). R287 and R296 allow an
injection only between Run calls; that one made during a Run call is refused as `hostDuringRun`, and that the error of an image
that does not fit names address 0x10000 and the current PC, are the model's DESIGN CHOICE (notes/assumptions/9.md). -/
def Obligations.InjectionOverlaysBootOnCartridge : Prop :=
  ∀ (s : State) (boot cart : Option (List Byte)),
    (s.run = .stopped → 65536 < max (boot.getD []).length (cart.getD []).length →
      s.inject boot cart = .fault (.configurationError 0x10000 s.pc)) ∧
    (s.run = .running → s.inject boot cart = .refused .hostDuringRun) ∧
    (s.run = .stopped → max (boot.getD []).length (cart.getD []).length ≤ 65536 →
    ∃ t, s.inject boot cart = .next t ∧ t = { s with mem := t.mem, pc := 0, prevPc := none } ∧
      Memory.wf s.par.sentinel t.mem ∧
      ∀ addr, t.peek addr =
        if h : addr < (boot.getD []).length then (boot.getD [])[addr]
        else if h : addr < (cart.getD []).length then (cart.getD [])[addr]
        else s.par.sentinel)

/-- R301: Run(some 0) changes nothing, on a faulted session and on any other; on one without an error it succeeds. -/
def Obligations.RunZeroChangesNothing : Prop :=
  ∀ (s : State), s.run = .stopped → (s.runCall 0).1 = s ∧ (s.fault = none → (s.runCall 0).2 = .success)

/-- R299: Run(some a) followed by Run(some b) reaches the state and the result of Run(some (a + b)) when the first succeeds. The spec marks this as derived: it rests on `prev_pc` persisting across
calls, which is its own choice (D28, notes/assumptions/15.md). -/
def Obligations.RunsCompose : Prop :=
  ∀ (a b : Nat) (s t : State), s.runCall a = (t, .success) → s.runCall (a + b) = t.runCall b

/-- A run of `a + b` steps meets no fatal error exactly when its first `a` steps meet none and the `b` steps after them
meet none (R299, R301: the steps of a run are taken one after the other, and the first fatal error ends it). -/
def Obligations.SafeRunsSplit : Prop :=
  ∀ (a b : Nat) (s : State), s.SafeFor (a + b) ↔ s.SafeFor a ∧ (runLoop a s).1.SafeFor b

/-- R266, R270, R300: a Run that ends in a fatal error leaves it latched and the machine stopped, and every later Run executes
nothing and returns the same error; while an error is latched a step answers it. The stickiness is the spec's own choice
(D30). -/
def Obligations.FatalErrorsAreSticky : Prop :=
  (∀ (k : Nat) (s t : State) (e : Fault), s.runCall k = (t, .fatal e) →
    t.fault = some e ∧ (s.fault = none → t.run = .stopped) ∧ ∀ j, t.runCall j = (t, .fatal e)) ∧
  ∀ (s : State) (e : Fault), s.fault = some e → step s = .fault e

/-- A store is seen by the very next fetch of that address, with no fence (R66): after LD (a16),A stores the opcode of a one-byte
instruction over the byte that follows it, the next step runs the stored instruction. The spec marks this as derived and as its
own choice (D36). -/
def Obligations.SelfModifyingStoreIsFetched : Prop :=
  ∀ (s : State) (i : Instr), sentinelLegal s.par.sentinel → s.fault = none → s.prevPc ≠ some s.pc →
    s.pc.toNat ≤ 0xFEF0 → s.peek s.pc.toNat = 0xEA →
    s.peek (s.pc.toNat + 1) = (s.pc + 3).extractLsb' 0 8 → s.peek (s.pc.toNat + 2) = (s.pc + 3).extractLsb' 8 8 →
    encode i = [s.a] → i.wf = true → s.a ∉ unassigned →
    ∃ t, step s = .next t ∧ t.pc = s.pc + 3 ∧ step t = exec i { t with prevPc := some t.pc }
end

