-- ==== Sys2Proof/Laws/Decode.lean ====
section
/-! SUPPORT. The index tables read back and forth, and the decoder on a full window. -/

namespace Sys2Proof

@[simp] theorem operandAt_code (o : Operand8) : operandAt o.code = o := by
  cases o with
  | reg r => cases r <;> rfl
  | hlInd => rfl

@[simp] theorem code_operandAt (i : BitVec 3) : (operandAt i).code = i := by
  revert i
  decide

@[simp] theorem pairAt_code (p : Pair) : pairAt p.code = p := by
  cases p <;> rfl

@[simp] theorem code_pairAt (k : BitVec 2) : (pairAt k).code = k := by
  revert k
  decide

@[simp] theorem decode_window (op b1 b2 : Byte) (rest : List Byte) :
    decode (op :: b1 :: b2 :: rest) = .ok (classify op b1 b2) := rfl

end Sys2Proof
end

