-- ==== Sys2Proof/Laws/Exec.lean ====
section
/-! SUPPORT. What each arm of `exec` is, in the terms of the shared shapes: the one lemma per instruction that proofs rewrite
with, so that none unfolds `exec`. -/

namespace Sys2Proof.Machine

theorem exec_nop (s : State) : exec .nop s = .next (s.advance 1) := rfl
theorem exec_ldA16Sp (a : Word) (s : State) : exec (.ldA16Sp a) s = raiseOpcode 0x08 s := rfl
theorem exec_stop (s : State) : exec .stop s = raiseOpcode 0x10 s := rfl
theorem exec_jr (off : Byte) (s : State) : exec (.jr off) s = relativeJump true off s := rfl
theorem exec_jrNz (off : Byte) (s : State) : exec (.jrNz off) s = relativeJump s.flags.condNz off s := rfl
theorem exec_jrZ (off : Byte) (s : State) : exec (.jrZ off) s = relativeJump s.flags.condZ off s := rfl
theorem exec_jrNc (off : Byte) (s : State) : exec (.jrNc off) s = relativeJump s.flags.condNc off s := rfl
theorem exec_jrC (off : Byte) (s : State) : exec (.jrC off) s = relativeJump s.flags.condC off s := rfl
theorem exec_ldRrD16 (p : Pair) (w : Word) (s : State) :
    exec (.ldRrD16 p w) s = .next ((s.setPair p w).advance 3) := rfl
theorem exec_addHlRr (p : Pair) (s : State) :
    exec (.addHlRr p) s = raiseOpcode (0b00#2 ++ p.code ++ 0b1001#4) s := rfl
theorem exec_ldBcA (s : State) : exec .ldBcA s = storeByte s.bc s.a (fun t => t.advance 1) s := rfl
theorem exec_ldDeA (s : State) : exec .ldDeA s = storeByte s.de s.a (fun t => t.advance 1) s := rfl
theorem exec_ldHlIncA (s : State) :
    exec .ldHlIncA s = storeByte s.hl s.a (fun t => (t.setHl (t.hl + 1)).advance 1) s := rfl
theorem exec_ldHlDecA (s : State) :
    exec .ldHlDecA s = storeByte s.hl s.a (fun t => (t.setHl (t.hl - 1)).advance 1) s := rfl
theorem exec_ldABc (s : State) : exec .ldABc s = loadByte s.bc (fun v t => (t.setReg .a v).advance 1) s := rfl
theorem exec_ldADe (s : State) : exec .ldADe s = loadByte s.de (fun v t => (t.setReg .a v).advance 1) s := rfl
theorem exec_ldAHlInc (s : State) :
    exec .ldAHlInc s = loadByte s.hl (fun v t => ((t.setReg .a v).setHl (t.hl + 1)).advance 1) s := rfl
theorem exec_ldAHlDec (s : State) :
    exec .ldAHlDec s = loadByte s.hl (fun v t => ((t.setReg .a v).setHl (t.hl - 1)).advance 1) s := rfl
theorem exec_incRr (p : Pair) (s : State) : exec (.incRr p) s = .next ((s.setPair p (s.pair p + 1)).advance 1) := rfl
theorem exec_decRr (p : Pair) (s : State) : exec (.decRr p) s = .next ((s.setPair p (s.pair p - 1)).advance 1) := rfl
theorem exec_incR (rd : Reg8) (s : State) :
    exec (.incR rd) s =
      s.modify (.reg rd) (fun v => v + 1) (fun _ r t => { t with flags := t.flags.afterInc r }.advance 1) := rfl
theorem exec_incHl (s : State) :
    exec .incHl s =
      s.modify .hlInd (fun v => v + 1) (fun _ r t => { t with flags := t.flags.afterInc r }.advance 1) := rfl
theorem exec_decR (rd : Reg8) (s : State) :
    exec (.decR rd) s =
      s.modify (.reg rd) (fun v => v - 1) (fun _ r t => { t with flags := t.flags.afterDec r }.advance 1) := rfl
theorem exec_decHl (s : State) :
    exec .decHl s =
      s.modify .hlInd (fun v => v - 1) (fun _ r t => { t with flags := t.flags.afterDec r }.advance 1) := rfl
theorem exec_ldRD8 (rd : Reg8) (n : Byte) (s : State) :
    exec (.ldRD8 rd n) s = .next ((s.setReg rd n).advance 2) := rfl
theorem exec_ldHlD8 (n : Byte) (s : State) : exec (.ldHlD8 n) s = storeByte s.hl n (fun t => t.advance 2) s := rfl
theorem exec_family7 (y : BitVec 3) (s : State) : exec (.family7 y) s = raiseOpcode (0b00#2 ++ y ++ 0b111#3) s := rfl
theorem exec_halt (s : State) : exec .halt s = raiseOpcode 0x76 s := rfl
theorem exec_ldRHl (rd : Reg8) (s : State) :
    exec (.ldRHl rd) s = loadByte s.hl (fun v t => (t.setReg rd v).advance 1) s := rfl
theorem exec_ldHlR (rs : Reg8) (s : State) :
    exec (.ldHlR rs) s = storeByte s.hl (s.reg rs) (fun t => t.advance 1) s := rfl
theorem exec_ldRR (rd rs : Reg8) (s : State) :
    exec (.ldRR rd rs) s = .next ((s.setReg rd (s.reg rs)).advance 1) := rfl
theorem exec_addAR (src : Operand8) (s : State) :
    exec (.addAR src) s = aluRow (fun a v _ => a + v) Flags.add true src s := rfl
theorem exec_adcAR (src : Operand8) (s : State) :
    exec (.adcAR src) s = aluRow (fun a v c => a + v + bitByte c) Flags.add true src s := rfl
theorem exec_subR (src : Operand8) (s : State) :
    exec (.subR src) s = aluRow (fun a v _ => a - v) Flags.sub true src s := rfl
theorem exec_sbcAR (src : Operand8) (s : State) :
    exec (.sbcAR src) s = aluRow (fun a v c => a - v - bitByte c) Flags.sub true src s := rfl
theorem exec_andR (src : Operand8) (s : State) :
    exec (.andR src) s = aluRow (fun a v _ => a &&& v) (fun _ r => Flags.and r) true src s := rfl
theorem exec_xorR (src : Operand8) (s : State) :
    exec (.xorR src) s = aluRow (fun a v _ => a ^^^ v) (fun _ r => Flags.logic r) true src s := rfl
theorem exec_orR (src : Operand8) (s : State) :
    exec (.orR src) s = aluRow (fun a v _ => a ||| v) (fun _ r => Flags.logic r) true src s := rfl
theorem exec_cpR (src : Operand8) (s : State) :
    exec (.cpR src) s = aluRow (fun a v _ => a - v) Flags.sub false src s := rfl
theorem exec_retNz (s : State) : exec .retNz s = raiseOpcode 0xC0 s := rfl
theorem exec_popBc (s : State) : exec .popBc s = popThen (fun w t => (t.setBc w).advance 1) s := rfl
theorem exec_jpNz (a : Word) (s : State) : exec (.jpNz a) s = raiseOpcode 0xC2 s := rfl
theorem exec_jp (target : Word) (s : State) : exec (.jp target) s = .next (s.jumpTo target) := rfl
theorem exec_callNz (target : Word) (s : State) : exec (.callNz target) s = callIf s.flags.condNz target s := rfl
theorem exec_pushBc (s : State) : exec .pushBc s = pushThen s.bc (fun t => t.advance 1) s := rfl
theorem exec_addAD8 (n : Byte) (s : State) : exec (.addAD8 n) s = raiseOpcode 0xC6 s := rfl
theorem exec_rst00 (s : State) : exec .rst00 s = raiseOpcode 0xC7 s := rfl
theorem exec_retZ (s : State) : exec .retZ s = raiseOpcode 0xC8 s := rfl
theorem exec_ret (s : State) : exec .ret s = popThen (fun w t => t.jumpTo w) s := rfl
theorem exec_jpZ (a : Word) (s : State) : exec (.jpZ a) s = raiseOpcode 0xCA s := rfl
theorem exec_callZ (target : Word) (s : State) : exec (.callZ target) s = callIf s.flags.condZ target s := rfl
theorem exec_call (target : Word) (s : State) :
    exec (.call target) s = pushThen (s.pc + 3) (fun t => t.jumpTo target) s := rfl
theorem exec_adcAD8 (n : Byte) (s : State) : exec (.adcAD8 n) s = raiseOpcode 0xCE s := rfl
theorem exec_rst08 (s : State) : exec .rst08 s = raiseOpcode 0xCF s := rfl
theorem exec_retNc (s : State) : exec .retNc s = raiseOpcode 0xD0 s := rfl
theorem exec_popDe (s : State) : exec .popDe s = popThen (fun w t => (t.setDe w).advance 1) s := rfl
theorem exec_jpNc (a : Word) (s : State) : exec (.jpNc a) s = raiseOpcode 0xD2 s := rfl
theorem exec_undefD3 (s : State) : exec .undefD3 s = raiseOpcode 0xD3 s := rfl
theorem exec_callNc (target : Word) (s : State) : exec (.callNc target) s = callIf s.flags.condNc target s := rfl
theorem exec_pushDe (s : State) : exec .pushDe s = pushThen s.de (fun t => t.advance 1) s := rfl
theorem exec_subD8 (n : Byte) (s : State) : exec (.subD8 n) s = raiseOpcode 0xD6 s := rfl
theorem exec_rst10 (s : State) : exec .rst10 s = raiseOpcode 0xD7 s := rfl
theorem exec_retC (s : State) : exec .retC s = raiseOpcode 0xD8 s := rfl
theorem exec_reti (s : State) : exec .reti s = popThen (fun w t => { t with ime := true }.jumpTo w) s := rfl
theorem exec_jpC (a : Word) (s : State) : exec (.jpC a) s = raiseOpcode 0xDA s := rfl
theorem exec_undefDB (s : State) : exec .undefDB s = raiseOpcode 0xDB s := rfl
theorem exec_callC (target : Word) (s : State) : exec (.callC target) s = callIf s.flags.condC target s := rfl
theorem exec_undefDD (s : State) : exec .undefDD s = raiseOpcode 0xDD s := rfl
theorem exec_sbcAD8 (n : Byte) (s : State) : exec (.sbcAD8 n) s = raiseOpcode 0xDE s := rfl
theorem exec_rst18 (s : State) : exec .rst18 s = raiseOpcode 0xDF s := rfl
theorem exec_ldhA8A (n : Byte) (s : State) :
    exec (.ldhA8A n) s = storeByte (highPage n) s.a (fun t => t.advance 2) s := rfl
theorem exec_popHl (s : State) : exec .popHl s = popThen (fun w t => (t.setHl w).advance 1) s := rfl
theorem exec_ldCA (s : State) : exec .ldCA s = raiseOpcode 0xE2 s := rfl
theorem exec_undefE3 (s : State) : exec .undefE3 s = raiseOpcode 0xE3 s := rfl
theorem exec_undefE4 (s : State) : exec .undefE4 s = raiseOpcode 0xE4 s := rfl
theorem exec_pushHl (s : State) : exec .pushHl s = pushThen s.hl (fun t => t.advance 1) s := rfl
theorem exec_andD8 (n : Byte) (s : State) : exec (.andD8 n) s = raiseOpcode 0xE6 s := rfl
theorem exec_rst20 (s : State) : exec .rst20 s = raiseOpcode 0xE7 s := rfl
theorem exec_addSpR8 (n : Byte) (s : State) : exec (.addSpR8 n) s = raiseOpcode 0xE8 s := rfl
theorem exec_jpHl (s : State) : exec .jpHl s = raiseOpcode 0xE9 s := rfl
theorem exec_ldA16A (addr : Word) (s : State) :
    exec (.ldA16A addr) s = storeByte addr s.a (fun t => t.advance 3) s := rfl
theorem exec_undefEB (s : State) : exec .undefEB s = raiseOpcode 0xEB s := rfl
theorem exec_undefEC (s : State) : exec .undefEC s = raiseOpcode 0xEC s := rfl
theorem exec_undefED (s : State) : exec .undefED s = raiseOpcode 0xED s := rfl
theorem exec_xorD8 (n : Byte) (s : State) : exec (.xorD8 n) s = raiseOpcode 0xEE s := rfl
theorem exec_rst28 (s : State) : exec .rst28 s = raiseOpcode 0xEF s := rfl
theorem exec_ldhAA8 (n : Byte) (s : State) :
    exec (.ldhAA8 n) s = loadByte (highPage n) (fun v t => (t.setReg .a v).advance 2) s := rfl
theorem exec_popAf (s : State) : exec .popAf s = popThen (fun w t => (t.setAf w).advance 1) s := rfl
theorem exec_ldAC (s : State) : exec .ldAC s = raiseOpcode 0xF2 s := rfl
theorem exec_di (s : State) : exec .di s = .next ({ s with ime := false }.advance 1) := rfl
theorem exec_undefF4 (s : State) : exec .undefF4 s = raiseOpcode 0xF4 s := rfl
theorem exec_pushAf (s : State) : exec .pushAf s = pushThen s.af (fun t => t.advance 1) s := rfl
theorem exec_orD8 (n : Byte) (s : State) : exec (.orD8 n) s = raiseOpcode 0xF6 s := rfl
theorem exec_rst30 (s : State) : exec .rst30 s = raiseOpcode 0xF7 s := rfl
theorem exec_ldHlSpR8 (n : Byte) (s : State) : exec (.ldHlSpR8 n) s = raiseOpcode 0xF8 s := rfl
theorem exec_ldSpHl (s : State) : exec .ldSpHl s = raiseOpcode 0xF9 s := rfl
theorem exec_ldAA16 (addr : Word) (s : State) :
    exec (.ldAA16 addr) s = loadByte addr (fun v t => (t.setReg .a v).advance 3) s := rfl
theorem exec_ei (s : State) : exec .ei s = .next ({ s with ime := true }.advance 1) := rfl
theorem exec_undefFC (s : State) : exec .undefFC s = raiseOpcode 0xFC s := rfl
theorem exec_undefFD (s : State) : exec .undefFD s = raiseOpcode 0xFD s := rfl
theorem exec_cpD8 (n : Byte) (s : State) :
    exec (.cpD8 n) s = .next ({ s with flags := Flags.sub s.a (s.a - n) }.advance 2) := rfl
theorem exec_rst38 (s : State) : exec .rst38 s = raiseOpcode 0xFF s := rfl
theorem exec_rlcR (src : Operand8) (s : State) :
    exec (.rlcR src) s =
      s.modify src (fun v => v <<< 1 ||| bitByte (v.getLsbD 7))
        (fun v _ t => { t with flags := Flags.rotate t.draws v, draws := t.draws + 3 }.advance 2) := rfl
theorem exec_rrcR (src : Operand8) (s : State) : exec (.rrcR src) s = raiseSub (0b00001#5 ++ src.code) s := rfl
theorem exec_rlR (src : Operand8) (s : State) :
    exec (.rlR src) s =
      s.modify src (fun v => v <<< 1 ||| bitByte s.flags.c)
        (fun v _ t => { t with flags := Flags.rotate t.draws v, draws := t.draws + 3 }.advance 2) := rfl
theorem exec_rrR (src : Operand8) (s : State) : exec (.rrR src) s = raiseSub (0b00011#5 ++ src.code) s := rfl
theorem exec_slaR (src : Operand8) (s : State) : exec (.slaR src) s = raiseSub (0b00100#5 ++ src.code) s := rfl
theorem exec_sraR (src : Operand8) (s : State) : exec (.sraR src) s = raiseSub (0b00101#5 ++ src.code) s := rfl
theorem exec_swapR (src : Operand8) (s : State) : exec (.swapR src) s = raiseSub (0b00110#5 ++ src.code) s := rfl
theorem exec_srlR (src : Operand8) (s : State) : exec (.srlR src) s = raiseSub (0b00111#5 ++ src.code) s := rfl
theorem exec_bit7H (s : State) : exec .bit7H s = .next ({ s with flags := s.flags.bitTest s.h }.advance 2) := rfl
theorem exec_bitBR (b : BitVec 3) (src : Operand8) (s : State) :
    exec (.bitBR b src) s = raiseSub (0b01#2 ++ b ++ src.code) s := rfl
theorem exec_resBR (b : BitVec 3) (src : Operand8) (s : State) :
    exec (.resBR b src) s = s.modify src (fun v => v &&& ~~~ bitMask b) (fun _ _ t => t.advance 2) := rfl
theorem exec_setBR (b : BitVec 3) (src : Operand8) (s : State) :
    exec (.setBR b src) s = s.modify src (fun v => v ||| bitMask b) (fun _ _ t => t.advance 2) := rfl

end Sys2Proof.Machine
end

