-- ==== Sys2Proof/Laws/Memory.lean ====
section
/-! SUPPORT. The laws of the list of cells: a read after a write, the canonical form kept by every operation, and what an
image reads as. -/

namespace Sys2Proof.Machine

/-! ## Reads -/

theorem Memory.read_cons (fill : Byte) (k addr : Nat) (v : Byte) (m : Memory) :
    Memory.read fill ((k, v) :: m) addr = if k = addr then v else Memory.read fill m addr := rfl

theorem Memory.read_of_absent (fill : Byte) (m : Memory) (addr : Nat) (h : ∀ c ∈ m, c.1 ≠ addr) :
    Memory.read fill m addr = fill := by
  induction m with
  | nil => rfl
  | cons c m ih =>
    obtain ⟨k, v⟩ := c
    rw [Memory.read_cons, if_neg (h (k, v) (by simp))]
    exact ih fun c hc => h c (by simp [hc])

theorem Memory.read_filter_other (fill : Byte) (m : Memory) (addr other : Nat) (h : other ≠ addr) :
    Memory.read fill (m.filter (fun c => c.1 != addr)) other = Memory.read fill m other := by
  induction m with
  | nil => rfl
  | cons c m ih =>
    obtain ⟨k, v⟩ := c
    by_cases hk : k = addr
    · subst hk
      rw [Memory.read_cons, if_neg (Ne.symm h), ← ih]
      simp
    · rw [List.filter_cons_of_pos (by simpa using hk), Memory.read_cons, Memory.read_cons, ih]

theorem Memory.read_filter_same (fill : Byte) (m : Memory) (addr : Nat) :
    Memory.read fill (m.filter (fun c => c.1 != addr)) addr = fill :=
  Memory.read_of_absent fill _ addr fun c hc => by simpa using (List.mem_filter.mp hc).2

theorem Memory.read_place (fill : Byte) (addr other : Nat) (v : Byte) (m : Memory) (h : ∀ c ∈ m, c.1 ≠ addr) :
    Memory.read fill (Memory.place addr v m) other = if other = addr then v else Memory.read fill m other := by
  induction m with
  | nil => simp [Memory.place, Memory.read, eq_comm]
  | cons c m ih =>
    obtain ⟨k, w⟩ := c
    have hk : k ≠ addr := h (k, w) (by simp)
    have ih' := ih fun c hc => h c (by simp [hc])
    unfold Memory.place
    split
    · simp [Memory.read_cons, eq_comm]
    · rw [Memory.read_cons, Memory.read_cons, ih']
      by_cases ho : k = other
      · subst ho
        simp [hk]
      · simp [ho]

/-- A byte reads as what was last written there, and every other byte as before; no canonical form is needed. -/
theorem Memory.read_write (fill : Byte) (m : Memory) (addr other : Nat) (v : Byte) :
    Memory.read fill (Memory.write fill m addr v) other = if other = addr then v else Memory.read fill m other := by
  have habs : ∀ c ∈ m.filter (fun c => c.1 != addr), c.1 ≠ addr := fun c hc => by
    simpa using (List.mem_filter.mp hc).2
  unfold Memory.write
  by_cases ho : other = addr
  · subst ho
    by_cases hv : v = fill
    · simp only [hv, if_true]
      exact Memory.read_filter_same fill m other
    · simp only [hv, if_false]
      rw [Memory.read_place fill other other v _ habs, if_pos rfl, if_pos trivial]
  · by_cases hv : v = fill
    · simp only [hv, if_true]
      rw [if_neg ho]
      exact Memory.read_filter_other fill m addr other ho
    · simp only [hv, if_false]
      rw [Memory.read_place fill addr other v _ habs, if_neg ho, if_neg ho]
      exact Memory.read_filter_other fill m addr other ho

/-! ## The canonical form -/

theorem Memory.wf_nil (fill : Byte) : Memory.wf fill [] := by
  simp [Memory.wf]

theorem Memory.wf_filter (fill : Byte) (m : Memory) (p : Host.Cell → Bool) (h : Memory.wf fill m) :
    Memory.wf fill (m.filter p) :=
  ⟨h.1.filter p, fun c hc => h.2 c (List.mem_filter.mp hc).1⟩

theorem Memory.mem_place (addr : Nat) (v : Byte) (m : Memory) (c : Host.Cell) :
    c ∈ Memory.place addr v m ↔ c = (addr, v) ∨ c ∈ m := by
  induction m with
  | nil => simp [Memory.place]
  | cons d m ih =>
    obtain ⟨k, w⟩ := d
    unfold Memory.place
    split
    · simp
    · simp only [List.mem_cons, ih]
      tauto

theorem Memory.rising_place (addr : Nat) (v : Byte) (m : Memory) (hm : m.Pairwise (fun c c' => c.1 < c'.1))
    (h : ∀ c ∈ m, c.1 ≠ addr) : (Memory.place addr v m).Pairwise (fun c c' => c.1 < c'.1) := by
  induction m with
  | nil => simp [Memory.place]
  | cons d m ih =>
    obtain ⟨k, w⟩ := d
    rw [List.pairwise_cons] at hm
    unfold Memory.place
    split
    case isTrue hlt =>
      rw [List.pairwise_cons]
      refine ⟨fun c hc => ?_, List.pairwise_cons.mpr hm⟩
      rcases List.mem_cons.mp hc with rfl | hc
      · exact hlt
      · exact Nat.lt_trans hlt (hm.1 c hc)
    case isFalse hge =>
      rw [List.pairwise_cons]
      refine ⟨fun c hc => ?_, ih hm.2 fun c hc => h c (by simp [hc])⟩
      have hk : k ≠ addr := h (k, w) (by simp)
      rcases (Memory.mem_place addr v m c).mp hc with rfl | hc
      · show k < addr
        omega
      · exact hm.1 c hc

/-- A write keeps the canonical form. -/
theorem Memory.wf_write (fill : Byte) (m : Memory) (addr : Nat) (v : Byte) (h : Memory.wf fill m)
    (haddr : addr < Config.memSize) : Memory.wf fill (Memory.write fill m addr v) := by
  have hf := Memory.wf_filter fill m (fun c => c.1 != addr) h
  have habs : ∀ c ∈ m.filter (fun c => c.1 != addr), c.1 ≠ addr := fun c hc => by
    simpa using (List.mem_filter.mp hc).2
  unfold Memory.write
  by_cases hv : v = fill
  · simp only [hv, if_true]
    exact hf
  · simp only [hv, if_false]
    refine ⟨Memory.rising_place addr v _ hf.1 habs, fun c hc => ?_⟩
    rcases (Memory.mem_place addr v _ c).mp hc with rfl | hc
    · exact ⟨hv, haddr⟩
    · exact hf.2 c hc

theorem Memory.wf_foldl (fill : Byte) (cells : List Host.Cell) (m : Memory) (h : Memory.wf fill m) :
    Memory.wf fill (cells.foldl (fun m c => if c.1 < Config.memSize then Memory.write fill m c.1 c.2 else m) m) := by
  induction cells generalizing m with
  | nil => exact h
  | cons c cells ih =>
    apply ih
    by_cases hc : c.1 < Config.memSize
    · simpa only [if_pos hc] using Memory.wf_write fill m c.1 c.2 h hc
    · simpa only [if_neg hc] using h

/-- The memory a list of cells describes is canonical, whatever the list. -/
theorem Memory.wf_ofCells (fill : Byte) (cells : List Host.Cell) : Memory.wf fill (Memory.ofCells fill cells) :=
  Memory.wf_foldl fill cells [] (Memory.wf_nil fill)

/-! ## Images -/

theorem Memory.mem_ofImage (fill : Byte) (base : Nat) (bytes : List Byte) (c : Host.Cell)
    (h : c ∈ Memory.ofImage fill base bytes) : c.2 ≠ fill ∧ base ≤ c.1 ∧ c.1 < base + bytes.length := by
  induction bytes generalizing base with
  | nil => simp [Memory.ofImage] at h
  | cons v rest ih =>
    unfold Memory.ofImage at h
    have step : c ∈ Memory.ofImage fill (base + 1) rest → c.2 ≠ fill ∧ base ≤ c.1 ∧ c.1 < base + (v :: rest).length := by
      intro hc
      have := ih (base + 1) hc
      rw [List.length_cons]
      exact ⟨this.1, by omega, by omega⟩
    split at h
    · exact step h
    case isFalse hv =>
      rcases List.mem_cons.mp h with rfl | hc
      · rw [List.length_cons]
        exact ⟨hv, Nat.le_refl base, by show base < _; omega⟩
      · exact step hc

theorem Memory.rising_ofImage (fill : Byte) (base : Nat) (bytes : List Byte) :
    (Memory.ofImage fill base bytes).Pairwise (fun c c' => c.1 < c'.1) := by
  induction bytes generalizing base with
  | nil => simp [Memory.ofImage]
  | cons v rest ih =>
    unfold Memory.ofImage
    split
    · exact ih (base + 1)
    · rw [List.pairwise_cons]
      refine ⟨fun c hc => ?_, ih (base + 1)⟩
      have := Memory.mem_ofImage fill (base + 1) rest c hc
      show base < c.1
      omega

/-- The memory of an image that fits is canonical. -/
theorem Memory.wf_ofImage (fill : Byte) (bytes : List Byte) (h : bytes.length ≤ Config.memSize) :
    Memory.wf fill (Memory.ofImage fill 0 bytes) :=
  ⟨Memory.rising_ofImage fill 0 bytes, fun c hc => by
    have := Memory.mem_ofImage fill 0 bytes c hc
    exact ⟨this.1, by omega⟩⟩

/-- An image reads as its bytes from `base` upward and as `fill` elsewhere. -/
theorem Memory.read_ofImage (fill : Byte) (base addr : Nat) (bytes : List Byte) :
    Memory.read fill (Memory.ofImage fill base bytes) addr =
      if base ≤ addr then bytes.getD (addr - base) fill else fill := by
  induction bytes generalizing base with
  | nil => simp [Memory.ofImage, Memory.read]
  | cons v rest ih =>
    have key : Memory.read fill (Memory.ofImage fill (base + 1) rest) addr =
        if base + 1 ≤ addr then rest.getD (addr - (base + 1)) fill else fill := ih (base + 1)
    unfold Memory.ofImage
    rcases Nat.lt_trichotomy addr base with hlt | rfl | hgt
    · have h1 : ¬ base ≤ addr := by omega
      have h2 : ¬ base + 1 ≤ addr := by omega
      have h3 : base ≠ addr := by omega
      split
      · rw [key, if_neg h2]
      · rw [Memory.read_cons, if_neg h3, key, if_neg h2]
    · split
      case isTrue hv =>
        rw [key, if_neg (by omega), if_pos (Nat.le_refl addr)]
        simp [hv]
      case isFalse => simp [Memory.read_cons]
    · have h1 : base ≤ addr := by omega
      have h2 : base + 1 ≤ addr := by omega
      have h3 : base ≠ addr := by omega
      have h4 : addr - base = (addr - (base + 1)) + 1 := by omega
      split
      · rw [key, if_pos h2, h4, List.getD_cons_succ]
      · rw [Memory.read_cons, if_neg h3, key, if_pos h2, h4, List.getD_cons_succ]

end Sys2Proof.Machine
end

