-- ==== Sys2Proof/Laws/State.lean ====
section
/-! SUPPORT. One lemma per field per update of the state, so that no proof unfolds a record update; and the laws of the byte
views. -/

namespace Sys2Proof.Machine

/-! ## `advance` -/

@[simp] theorem State.advance_a (s : State) (n : Word) : (s.advance n).a = s.a := rfl
@[simp] theorem State.advance_b (s : State) (n : Word) : (s.advance n).b = s.b := rfl
@[simp] theorem State.advance_c (s : State) (n : Word) : (s.advance n).c = s.c := rfl
@[simp] theorem State.advance_d (s : State) (n : Word) : (s.advance n).d = s.d := rfl
@[simp] theorem State.advance_e (s : State) (n : Word) : (s.advance n).e = s.e := rfl
@[simp] theorem State.advance_h (s : State) (n : Word) : (s.advance n).h = s.h := rfl
@[simp] theorem State.advance_l (s : State) (n : Word) : (s.advance n).l = s.l := rfl
@[simp] theorem State.advance_flags (s : State) (n : Word) : (s.advance n).flags = s.flags := rfl
@[simp] theorem State.advance_sp (s : State) (n : Word) : (s.advance n).sp = s.sp := rfl
@[simp] theorem State.advance_pc (s : State) (n : Word) : (s.advance n).pc = s.pc + n := rfl
@[simp] theorem State.advance_ime (s : State) (n : Word) : (s.advance n).ime = s.ime := rfl
@[simp] theorem State.advance_mem (s : State) (n : Word) : (s.advance n).mem = s.mem := rfl
@[simp] theorem State.advance_run (s : State) (n : Word) : (s.advance n).run = s.run := rfl
@[simp] theorem State.advance_fault (s : State) (n : Word) : (s.advance n).fault = s.fault := rfl
@[simp] theorem State.advance_prevPc (s : State) (n : Word) : (s.advance n).prevPc = s.prevPc := rfl
@[simp] theorem State.advance_draws (s : State) (n : Word) : (s.advance n).draws = s.draws := rfl
@[simp] theorem State.advance_par (s : State) (n : Word) : (s.advance n).par = s.par := rfl

/-! ## `jumpTo` -/

@[simp] theorem State.jumpTo_a (s : State) (target : Word) : (s.jumpTo target).a = s.a := rfl
@[simp] theorem State.jumpTo_b (s : State) (target : Word) : (s.jumpTo target).b = s.b := rfl
@[simp] theorem State.jumpTo_c (s : State) (target : Word) : (s.jumpTo target).c = s.c := rfl
@[simp] theorem State.jumpTo_d (s : State) (target : Word) : (s.jumpTo target).d = s.d := rfl
@[simp] theorem State.jumpTo_e (s : State) (target : Word) : (s.jumpTo target).e = s.e := rfl
@[simp] theorem State.jumpTo_h (s : State) (target : Word) : (s.jumpTo target).h = s.h := rfl
@[simp] theorem State.jumpTo_l (s : State) (target : Word) : (s.jumpTo target).l = s.l := rfl
@[simp] theorem State.jumpTo_flags (s : State) (target : Word) : (s.jumpTo target).flags = s.flags := rfl
@[simp] theorem State.jumpTo_sp (s : State) (target : Word) : (s.jumpTo target).sp = s.sp := rfl
@[simp] theorem State.jumpTo_pc (s : State) (target : Word) : (s.jumpTo target).pc = target := rfl
@[simp] theorem State.jumpTo_ime (s : State) (target : Word) : (s.jumpTo target).ime = s.ime := rfl
@[simp] theorem State.jumpTo_mem (s : State) (target : Word) : (s.jumpTo target).mem = s.mem := rfl
@[simp] theorem State.jumpTo_run (s : State) (target : Word) : (s.jumpTo target).run = s.run := rfl
@[simp] theorem State.jumpTo_fault (s : State) (target : Word) : (s.jumpTo target).fault = s.fault := rfl
@[simp] theorem State.jumpTo_prevPc (s : State) (target : Word) : (s.jumpTo target).prevPc = s.prevPc := rfl
@[simp] theorem State.jumpTo_draws (s : State) (target : Word) : (s.jumpTo target).draws = s.draws := rfl
@[simp] theorem State.jumpTo_par (s : State) (target : Word) : (s.jumpTo target).par = s.par := rfl

/-! ## `setBc` -/

@[simp] theorem State.setBc_a (s : State) (w : Word) : (s.setBc w).a = s.a := rfl
@[simp] theorem State.setBc_b (s : State) (w : Word) : (s.setBc w).b = hiByte w := rfl
@[simp] theorem State.setBc_c (s : State) (w : Word) : (s.setBc w).c = loByte w := rfl
@[simp] theorem State.setBc_d (s : State) (w : Word) : (s.setBc w).d = s.d := rfl
@[simp] theorem State.setBc_e (s : State) (w : Word) : (s.setBc w).e = s.e := rfl
@[simp] theorem State.setBc_h (s : State) (w : Word) : (s.setBc w).h = s.h := rfl
@[simp] theorem State.setBc_l (s : State) (w : Word) : (s.setBc w).l = s.l := rfl
@[simp] theorem State.setBc_flags (s : State) (w : Word) : (s.setBc w).flags = s.flags := rfl
@[simp] theorem State.setBc_sp (s : State) (w : Word) : (s.setBc w).sp = s.sp := rfl
@[simp] theorem State.setBc_pc (s : State) (w : Word) : (s.setBc w).pc = s.pc := rfl
@[simp] theorem State.setBc_ime (s : State) (w : Word) : (s.setBc w).ime = s.ime := rfl
@[simp] theorem State.setBc_mem (s : State) (w : Word) : (s.setBc w).mem = s.mem := rfl
@[simp] theorem State.setBc_run (s : State) (w : Word) : (s.setBc w).run = s.run := rfl
@[simp] theorem State.setBc_fault (s : State) (w : Word) : (s.setBc w).fault = s.fault := rfl
@[simp] theorem State.setBc_prevPc (s : State) (w : Word) : (s.setBc w).prevPc = s.prevPc := rfl
@[simp] theorem State.setBc_draws (s : State) (w : Word) : (s.setBc w).draws = s.draws := rfl
@[simp] theorem State.setBc_par (s : State) (w : Word) : (s.setBc w).par = s.par := rfl

/-! ## `setDe` -/

@[simp] theorem State.setDe_a (s : State) (w : Word) : (s.setDe w).a = s.a := rfl
@[simp] theorem State.setDe_b (s : State) (w : Word) : (s.setDe w).b = s.b := rfl
@[simp] theorem State.setDe_c (s : State) (w : Word) : (s.setDe w).c = s.c := rfl
@[simp] theorem State.setDe_d (s : State) (w : Word) : (s.setDe w).d = hiByte w := rfl
@[simp] theorem State.setDe_e (s : State) (w : Word) : (s.setDe w).e = loByte w := rfl
@[simp] theorem State.setDe_h (s : State) (w : Word) : (s.setDe w).h = s.h := rfl
@[simp] theorem State.setDe_l (s : State) (w : Word) : (s.setDe w).l = s.l := rfl
@[simp] theorem State.setDe_flags (s : State) (w : Word) : (s.setDe w).flags = s.flags := rfl
@[simp] theorem State.setDe_sp (s : State) (w : Word) : (s.setDe w).sp = s.sp := rfl
@[simp] theorem State.setDe_pc (s : State) (w : Word) : (s.setDe w).pc = s.pc := rfl
@[simp] theorem State.setDe_ime (s : State) (w : Word) : (s.setDe w).ime = s.ime := rfl
@[simp] theorem State.setDe_mem (s : State) (w : Word) : (s.setDe w).mem = s.mem := rfl
@[simp] theorem State.setDe_run (s : State) (w : Word) : (s.setDe w).run = s.run := rfl
@[simp] theorem State.setDe_fault (s : State) (w : Word) : (s.setDe w).fault = s.fault := rfl
@[simp] theorem State.setDe_prevPc (s : State) (w : Word) : (s.setDe w).prevPc = s.prevPc := rfl
@[simp] theorem State.setDe_draws (s : State) (w : Word) : (s.setDe w).draws = s.draws := rfl
@[simp] theorem State.setDe_par (s : State) (w : Word) : (s.setDe w).par = s.par := rfl

/-! ## `setHl` -/

@[simp] theorem State.setHl_a (s : State) (w : Word) : (s.setHl w).a = s.a := rfl
@[simp] theorem State.setHl_b (s : State) (w : Word) : (s.setHl w).b = s.b := rfl
@[simp] theorem State.setHl_c (s : State) (w : Word) : (s.setHl w).c = s.c := rfl
@[simp] theorem State.setHl_d (s : State) (w : Word) : (s.setHl w).d = s.d := rfl
@[simp] theorem State.setHl_e (s : State) (w : Word) : (s.setHl w).e = s.e := rfl
@[simp] theorem State.setHl_h (s : State) (w : Word) : (s.setHl w).h = hiByte w := rfl
@[simp] theorem State.setHl_l (s : State) (w : Word) : (s.setHl w).l = loByte w := rfl
@[simp] theorem State.setHl_flags (s : State) (w : Word) : (s.setHl w).flags = s.flags := rfl
@[simp] theorem State.setHl_sp (s : State) (w : Word) : (s.setHl w).sp = s.sp := rfl
@[simp] theorem State.setHl_pc (s : State) (w : Word) : (s.setHl w).pc = s.pc := rfl
@[simp] theorem State.setHl_ime (s : State) (w : Word) : (s.setHl w).ime = s.ime := rfl
@[simp] theorem State.setHl_mem (s : State) (w : Word) : (s.setHl w).mem = s.mem := rfl
@[simp] theorem State.setHl_run (s : State) (w : Word) : (s.setHl w).run = s.run := rfl
@[simp] theorem State.setHl_fault (s : State) (w : Word) : (s.setHl w).fault = s.fault := rfl
@[simp] theorem State.setHl_prevPc (s : State) (w : Word) : (s.setHl w).prevPc = s.prevPc := rfl
@[simp] theorem State.setHl_draws (s : State) (w : Word) : (s.setHl w).draws = s.draws := rfl
@[simp] theorem State.setHl_par (s : State) (w : Word) : (s.setHl w).par = s.par := rfl

/-! ## `setAf` -/

@[simp] theorem State.setAf_a (s : State) (w : Word) : (s.setAf w).a = hiByte w := rfl
@[simp] theorem State.setAf_b (s : State) (w : Word) : (s.setAf w).b = s.b := rfl
@[simp] theorem State.setAf_c (s : State) (w : Word) : (s.setAf w).c = s.c := rfl
@[simp] theorem State.setAf_d (s : State) (w : Word) : (s.setAf w).d = s.d := rfl
@[simp] theorem State.setAf_e (s : State) (w : Word) : (s.setAf w).e = s.e := rfl
@[simp] theorem State.setAf_h (s : State) (w : Word) : (s.setAf w).h = s.h := rfl
@[simp] theorem State.setAf_l (s : State) (w : Word) : (s.setAf w).l = s.l := rfl
@[simp] theorem State.setAf_flags (s : State) (w : Word) : (s.setAf w).flags = Flags.ofByte (loByte w) := rfl
@[simp] theorem State.setAf_sp (s : State) (w : Word) : (s.setAf w).sp = s.sp := rfl
@[simp] theorem State.setAf_pc (s : State) (w : Word) : (s.setAf w).pc = s.pc := rfl
@[simp] theorem State.setAf_ime (s : State) (w : Word) : (s.setAf w).ime = s.ime := rfl
@[simp] theorem State.setAf_mem (s : State) (w : Word) : (s.setAf w).mem = s.mem := rfl
@[simp] theorem State.setAf_run (s : State) (w : Word) : (s.setAf w).run = s.run := rfl
@[simp] theorem State.setAf_fault (s : State) (w : Word) : (s.setAf w).fault = s.fault := rfl
@[simp] theorem State.setAf_prevPc (s : State) (w : Word) : (s.setAf w).prevPc = s.prevPc := rfl
@[simp] theorem State.setAf_draws (s : State) (w : Word) : (s.setAf w).draws = s.draws := rfl
@[simp] theorem State.setAf_par (s : State) (w : Word) : (s.setAf w).par = s.par := rfl

/-! ## `poke` -/

@[simp] theorem State.poke_a (s : State) (addr : Nat) (v : Byte) : (s.poke addr v).a = s.a := rfl
@[simp] theorem State.poke_b (s : State) (addr : Nat) (v : Byte) : (s.poke addr v).b = s.b := rfl
@[simp] theorem State.poke_c (s : State) (addr : Nat) (v : Byte) : (s.poke addr v).c = s.c := rfl
@[simp] theorem State.poke_d (s : State) (addr : Nat) (v : Byte) : (s.poke addr v).d = s.d := rfl
@[simp] theorem State.poke_e (s : State) (addr : Nat) (v : Byte) : (s.poke addr v).e = s.e := rfl
@[simp] theorem State.poke_h (s : State) (addr : Nat) (v : Byte) : (s.poke addr v).h = s.h := rfl
@[simp] theorem State.poke_l (s : State) (addr : Nat) (v : Byte) : (s.poke addr v).l = s.l := rfl
@[simp] theorem State.poke_flags (s : State) (addr : Nat) (v : Byte) : (s.poke addr v).flags = s.flags := rfl
@[simp] theorem State.poke_sp (s : State) (addr : Nat) (v : Byte) : (s.poke addr v).sp = s.sp := rfl
@[simp] theorem State.poke_pc (s : State) (addr : Nat) (v : Byte) : (s.poke addr v).pc = s.pc := rfl
@[simp] theorem State.poke_ime (s : State) (addr : Nat) (v : Byte) : (s.poke addr v).ime = s.ime := rfl
@[simp] theorem State.poke_mem (s : State) (addr : Nat) (v : Byte) : (s.poke addr v).mem = Memory.write s.par.sentinel s.mem addr v := rfl
@[simp] theorem State.poke_run (s : State) (addr : Nat) (v : Byte) : (s.poke addr v).run = s.run := rfl
@[simp] theorem State.poke_fault (s : State) (addr : Nat) (v : Byte) : (s.poke addr v).fault = s.fault := rfl
@[simp] theorem State.poke_prevPc (s : State) (addr : Nat) (v : Byte) : (s.poke addr v).prevPc = s.prevPc := rfl
@[simp] theorem State.poke_draws (s : State) (addr : Nat) (v : Byte) : (s.poke addr v).draws = s.draws := rfl
@[simp] theorem State.poke_par (s : State) (addr : Nat) (v : Byte) : (s.poke addr v).par = s.par := rfl

/-! ## `recordPc` -/

@[simp] theorem State.recordPc_a (s : State) : (s.recordPc).a = s.a := rfl
@[simp] theorem State.recordPc_b (s : State) : (s.recordPc).b = s.b := rfl
@[simp] theorem State.recordPc_c (s : State) : (s.recordPc).c = s.c := rfl
@[simp] theorem State.recordPc_d (s : State) : (s.recordPc).d = s.d := rfl
@[simp] theorem State.recordPc_e (s : State) : (s.recordPc).e = s.e := rfl
@[simp] theorem State.recordPc_h (s : State) : (s.recordPc).h = s.h := rfl
@[simp] theorem State.recordPc_l (s : State) : (s.recordPc).l = s.l := rfl
@[simp] theorem State.recordPc_flags (s : State) : (s.recordPc).flags = s.flags := rfl
@[simp] theorem State.recordPc_sp (s : State) : (s.recordPc).sp = s.sp := rfl
@[simp] theorem State.recordPc_pc (s : State) : (s.recordPc).pc = s.pc := rfl
@[simp] theorem State.recordPc_ime (s : State) : (s.recordPc).ime = s.ime := rfl
@[simp] theorem State.recordPc_mem (s : State) : (s.recordPc).mem = s.mem := rfl
@[simp] theorem State.recordPc_run (s : State) : (s.recordPc).run = s.run := rfl
@[simp] theorem State.recordPc_fault (s : State) : (s.recordPc).fault = s.fault := rfl
@[simp] theorem State.recordPc_prevPc (s : State) : (s.recordPc).prevPc = some s.pc := rfl
@[simp] theorem State.recordPc_draws (s : State) : (s.recordPc).draws = s.draws := rfl
@[simp] theorem State.recordPc_par (s : State) : (s.recordPc).par = s.par := rfl

/-! ## `dropTop` -/

@[simp] theorem State.dropTop_a (s : State) : (s.dropTop).a = s.a := rfl
@[simp] theorem State.dropTop_b (s : State) : (s.dropTop).b = s.b := rfl
@[simp] theorem State.dropTop_c (s : State) : (s.dropTop).c = s.c := rfl
@[simp] theorem State.dropTop_d (s : State) : (s.dropTop).d = s.d := rfl
@[simp] theorem State.dropTop_e (s : State) : (s.dropTop).e = s.e := rfl
@[simp] theorem State.dropTop_h (s : State) : (s.dropTop).h = s.h := rfl
@[simp] theorem State.dropTop_l (s : State) : (s.dropTop).l = s.l := rfl
@[simp] theorem State.dropTop_flags (s : State) : (s.dropTop).flags = s.flags := rfl
@[simp] theorem State.dropTop_sp (s : State) : (s.dropTop).sp = s.sp + 2 := rfl
@[simp] theorem State.dropTop_pc (s : State) : (s.dropTop).pc = s.pc := rfl
@[simp] theorem State.dropTop_ime (s : State) : (s.dropTop).ime = s.ime := rfl
@[simp] theorem State.dropTop_mem (s : State) : (s.dropTop).mem = s.mem := rfl
@[simp] theorem State.dropTop_run (s : State) : (s.dropTop).run = s.run := rfl
@[simp] theorem State.dropTop_fault (s : State) : (s.dropTop).fault = s.fault := rfl
@[simp] theorem State.dropTop_prevPc (s : State) : (s.dropTop).prevPc = s.prevPc := rfl
@[simp] theorem State.dropTop_draws (s : State) : (s.dropTop).draws = s.draws := rfl
@[simp] theorem State.dropTop_par (s : State) : (s.dropTop).par = s.par := rfl

/-! ## `latch` -/

@[simp] theorem State.latch_a (s : State) (err : Fault) : (s.latch err).a = s.a := rfl
@[simp] theorem State.latch_b (s : State) (err : Fault) : (s.latch err).b = s.b := rfl
@[simp] theorem State.latch_c (s : State) (err : Fault) : (s.latch err).c = s.c := rfl
@[simp] theorem State.latch_d (s : State) (err : Fault) : (s.latch err).d = s.d := rfl
@[simp] theorem State.latch_e (s : State) (err : Fault) : (s.latch err).e = s.e := rfl
@[simp] theorem State.latch_h (s : State) (err : Fault) : (s.latch err).h = s.h := rfl
@[simp] theorem State.latch_l (s : State) (err : Fault) : (s.latch err).l = s.l := rfl
@[simp] theorem State.latch_flags (s : State) (err : Fault) : (s.latch err).flags = s.flags := rfl
@[simp] theorem State.latch_sp (s : State) (err : Fault) : (s.latch err).sp = s.sp := rfl
@[simp] theorem State.latch_pc (s : State) (err : Fault) : (s.latch err).pc = s.pc := rfl
@[simp] theorem State.latch_ime (s : State) (err : Fault) : (s.latch err).ime = s.ime := rfl
@[simp] theorem State.latch_mem (s : State) (err : Fault) : (s.latch err).mem = s.mem := rfl
@[simp] theorem State.latch_run (s : State) (err : Fault) : (s.latch err).run = .stopped := rfl
@[simp] theorem State.latch_fault (s : State) (err : Fault) : (s.latch err).fault = some err := rfl
@[simp] theorem State.latch_prevPc (s : State) (err : Fault) : (s.latch err).prevPc = s.prevPc := rfl
@[simp] theorem State.latch_draws (s : State) (err : Fault) : (s.latch err).draws = s.draws := rfl
@[simp] theorem State.latch_par (s : State) (err : Fault) : (s.latch err).par = s.par := rfl

/-! ## `setReg` and `setPair`: what no 8-bit register is -/

@[simp] theorem State.setReg_flags (s : State) (r : Reg8) (v : Byte) : (s.setReg r v).flags = s.flags := by cases r <;> rfl
@[simp] theorem State.setReg_sp (s : State) (r : Reg8) (v : Byte) : (s.setReg r v).sp = s.sp := by cases r <;> rfl
@[simp] theorem State.setReg_pc (s : State) (r : Reg8) (v : Byte) : (s.setReg r v).pc = s.pc := by cases r <;> rfl
@[simp] theorem State.setReg_ime (s : State) (r : Reg8) (v : Byte) : (s.setReg r v).ime = s.ime := by cases r <;> rfl
@[simp] theorem State.setReg_mem (s : State) (r : Reg8) (v : Byte) : (s.setReg r v).mem = s.mem := by cases r <;> rfl
@[simp] theorem State.setReg_run (s : State) (r : Reg8) (v : Byte) : (s.setReg r v).run = s.run := by cases r <;> rfl
@[simp] theorem State.setReg_fault (s : State) (r : Reg8) (v : Byte) : (s.setReg r v).fault = s.fault := by cases r <;> rfl
@[simp] theorem State.setReg_prevPc (s : State) (r : Reg8) (v : Byte) : (s.setReg r v).prevPc = s.prevPc := by cases r <;> rfl
@[simp] theorem State.setReg_draws (s : State) (r : Reg8) (v : Byte) : (s.setReg r v).draws = s.draws := by cases r <;> rfl
@[simp] theorem State.setReg_par (s : State) (r : Reg8) (v : Byte) : (s.setReg r v).par = s.par := by cases r <;> rfl
@[simp] theorem State.setPair_a (s : State) (p : Pair) (w : Word) : (s.setPair p w).a = s.a := by cases p <;> rfl
@[simp] theorem State.setPair_flags (s : State) (p : Pair) (w : Word) : (s.setPair p w).flags = s.flags := by cases p <;> rfl
@[simp] theorem State.setPair_pc (s : State) (p : Pair) (w : Word) : (s.setPair p w).pc = s.pc := by cases p <;> rfl
@[simp] theorem State.setPair_ime (s : State) (p : Pair) (w : Word) : (s.setPair p w).ime = s.ime := by cases p <;> rfl
@[simp] theorem State.setPair_mem (s : State) (p : Pair) (w : Word) : (s.setPair p w).mem = s.mem := by cases p <;> rfl
@[simp] theorem State.setPair_run (s : State) (p : Pair) (w : Word) : (s.setPair p w).run = s.run := by cases p <;> rfl
@[simp] theorem State.setPair_fault (s : State) (p : Pair) (w : Word) : (s.setPair p w).fault = s.fault := by cases p <;> rfl
@[simp] theorem State.setPair_prevPc (s : State) (p : Pair) (w : Word) : (s.setPair p w).prevPc = s.prevPc := by cases p <;> rfl
@[simp] theorem State.setPair_draws (s : State) (p : Pair) (w : Word) : (s.setPair p w).draws = s.draws := by cases p <;> rfl
@[simp] theorem State.setPair_par (s : State) (p : Pair) (w : Word) : (s.setPair p w).par = s.par := by cases p <;> rfl

@[simp] theorem State.reg_setReg_same (s : State) (r : Reg8) (v : Byte) : (s.setReg r v).reg r = v := by
  cases r <;> rfl

theorem State.reg_setReg_other (s : State) (r q : Reg8) (v : Byte) (h : q ≠ r) : (s.setReg r v).reg q = s.reg q := by
  cases r <;> cases q <;> first | rfl | exact absurd rfl h

/-! ## Reads of registers and memory depend on their own fields alone -/

theorem State.peek_congr (s t : State) (hm : t.mem = s.mem) (hp : t.par = s.par) (addr : Nat) : t.peek addr = s.peek addr := by
  unfold State.peek
  rw [hm, hp]

theorem State.memRead_congr (s t : State) (hm : t.mem = s.mem) (hp : t.par = s.par) (hpc : t.pc = s.pc) (addr : Nat) :
    t.memRead addr = s.memRead addr := by
  unfold State.memRead State.peek
  rw [hm, hp, hpc]

/-! ## Bytes and words -/

theorem cat_toNat (x y : Byte) : (cat x y).toNat = x.toNat * 256 + y.toNat := by
  have hy := y.isLt
  rw [cat, BitVec.toNat_append, Nat.shiftLeft_eq, Nat.mul_comm, ← Nat.two_pow_add_eq_or_of_lt hy, Nat.mul_comm]

theorem hiByte_toNat (w : Word) : (hiByte w).toNat = w.toNat / 256 := by
  have hw := w.isLt
  rw [hiByte, BitVec.extractLsb'_toNat, Nat.shiftRight_eq_div_pow]
  omega

theorem loByte_toNat (w : Word) : (loByte w).toNat = w.toNat % 256 := by
  rw [loByte, BitVec.extractLsb'_toNat, Nat.shiftRight_zero]

@[simp] theorem hiByte_cat (x y : Byte) : hiByte (cat x y) = x := by
  have hx := x.isLt
  have hy := y.isLt
  apply BitVec.eq_of_toNat_eq
  rw [hiByte_toNat, cat_toNat]
  omega

@[simp] theorem loByte_cat (x y : Byte) : loByte (cat x y) = y := by
  have hx := x.isLt
  have hy := y.isLt
  apply BitVec.eq_of_toNat_eq
  rw [loByte_toNat, cat_toNat]
  omega

@[simp] theorem cat_hi_lo (w : Word) : cat (hiByte w) (loByte w) = w := by
  apply BitVec.eq_of_toNat_eq
  rw [cat_toNat, hiByte_toNat, loByte_toNat]
  omega

@[simp] theorem Flags.ofByte_toByte (f : Flags) : Flags.ofByte f.toByte = f := by
  cases f with
  | mk z n h c => cases z <;> cases n <;> cases h <;> cases c <;> decide

end Sys2Proof.Machine
end

