-- ==== Sys2Proof/Laws/Ops.lean ====
section
/-! SUPPORT. One lemma per shared operation that says once everything it can do; later proofs cite these and do not unfold the
operations. -/

namespace Sys2Proof.Machine

open Sys2Proof.Config (PortClass)

/-! ## Raw cells -/

theorem State.peek_poke (s : State) (addr other : Nat) (v : Byte) :
    (s.poke addr v).peek other = if other = addr then v else s.peek other :=
  Memory.read_write s.par.sentinel s.mem addr other v

/-! ## Reads -/

/-- What a read answers, outside the window and, by class, inside it. -/
theorem State.memRead_plain (s : State) (addr : Nat) (h : addr < Config.memSize) (hw : ¬ inWindow addr) :
    s.memRead addr = .ok (s.peek addr) := by
  rw [State.memRead, if_neg (Nat.not_le.mpr h), if_pos hw]

theorem State.memRead_past (s : State) (addr : Nat) (h : Config.memSize ≤ addr) :
    s.memRead addr = .error (.configurationError addr s.pc) := by
  rw [State.memRead, if_pos h]

/-- The addresses of the window lie in MEM. -/
theorem inWindow_lt {addr : Nat} (h : inWindow addr) : ¬ Config.memSize ≤ addr := by
  have : Config.ioLast < Config.memSize := by decide
  have := h.2
  omega

theorem State.memRead_port (s : State) (addr : Nat) (hw : inWindow addr) :
    s.memRead addr =
      match portClass s.par addr with
      | .sound => .ok (s.peek addr)
      | .stored => .ok (s.peek addr)
      | .scanLine => .ok s.par.scanline
      | .special p => .ok (Config.specialRead p s.par.sentinel s.mem)
      | .notBuilt => .error (.unimplemented (.port addr) s.pc)
      | .undocumented => .error (.undocumentedPort addr .read s.pc) :=
  (if_neg (inWindow_lt hw)).trans ((if_neg (not_not.mpr hw)).trans (by cases portClass s.par addr <;> rfl))

/-- A read succeeds exactly at a readable address. -/
theorem State.memRead_ok_iff (s : State) (addr : Nat) : (∃ v, s.memRead addr = .ok v) ↔ s.Readable addr := by
  by_cases h : Config.memSize ≤ addr
  · rw [s.memRead_past addr h]
    simp [State.Readable, Nat.not_lt.mpr h]
  · by_cases hw : inWindow addr
    · rw [s.memRead_port addr hw]
      have hlt : addr < Config.memSize := Nat.not_le.mp h
      cases hc : portClass s.par addr <;> simp only [State.Readable, hc] <;> simp [hw, hlt]
    · rw [s.memRead_plain addr (Nat.not_le.mp h) hw]
      simp only [State.Readable]
      exact ⟨fun _ => ⟨Nat.not_le.mp h, fun h' => absurd h' hw⟩, fun _ => ⟨_, rfl⟩⟩

/-! ## Writes -/

theorem State.memWrite_plain (s : State) (addr : Nat) (v : Byte) (h : addr < Config.memSize) (hw : ¬ inWindow addr) :
    s.memWrite addr v = .ok (s.poke addr v) := by
  rw [State.memWrite, if_neg (Nat.not_le.mpr h), if_pos hw]

theorem State.memWrite_past (s : State) (addr : Nat) (v : Byte) (h : Config.memSize ≤ addr) :
    s.memWrite addr v = .error (.configurationError addr s.pc) := by
  rw [State.memWrite, if_pos h]

theorem State.memWrite_port (s : State) (addr : Nat) (v : Byte) (hw : inWindow addr) :
    s.memWrite addr v =
      match portClass s.par addr with
      | .sound => .ok s
      | .stored => .ok (s.poke addr v)
      | .scanLine => .error (.unimplemented (.port addr) s.pc)
      | .special p =>
        .ok { s with mem := Memory.ofCells s.par.sentinel (Config.specialWrite p s.par.sentinel s.mem v) }
      | .notBuilt => .error (.unimplemented (.port addr) s.pc)
      | .undocumented => .error (.undocumentedPort addr .write s.pc) :=
  (if_neg (inWindow_lt hw)).trans ((if_neg (not_not.mpr hw)).trans (by cases portClass s.par addr <;> rfl))

/-- Everything a write that succeeds can do: it goes to a writable address, changes MEM alone, keeps the canonical form,
and stores the byte as its class says. -/
theorem State.memWrite_ok {s t : State} {addr : Nat} {v : Byte} (h : s.memWrite addr v = .ok t) :
    s.Writable addr ∧ t = { s with mem := t.mem } ∧ (Memory.wf s.par.sentinel s.mem → Memory.wf s.par.sentinel t.mem) ∧
      s.StoredByte t addr v := by
  by_cases hp : Config.memSize ≤ addr
  · rw [s.memWrite_past addr v hp] at h
    cases h
  have hlt : addr < Config.memSize := Nat.not_le.mp hp
  have poked : (inWindow addr → portClass s.par addr = .stored) → s.StoredByte (s.poke addr v) addr v := by
    intro hst
    refine ⟨fun _ => by simp [s.peek_poke], fun hw hs => ?_, fun _ o ho => by simp [s.peek_poke, ho], fun hw p hs => ?_⟩
    · rw [hst hw] at hs
      cases hs
    · rw [hst hw] at hs
      cases hs
  by_cases hw : inWindow addr
  · rw [s.memWrite_port addr v hw] at h
    cases hc : portClass s.par addr with
    | sound =>
      rw [hc] at h
      cases h
      refine ⟨⟨hlt, fun _ => by simp [hc]⟩, rfl, id, fun hs => ?_, fun _ _ => rfl, fun _ _ _ => rfl, fun _ p hs => ?_⟩
      · have := hs hw
        rw [hc] at this
        cases this
      · rw [hc] at hs
        cases hs
    | stored =>
      rw [hc] at h
      cases h
      exact ⟨⟨hlt, fun _ => by simp [hc]⟩, rfl, fun hwf => Memory.wf_write _ _ _ _ hwf hlt, poked fun _ => hc⟩
    | special p =>
      rw [hc] at h
      cases h
      refine ⟨⟨hlt, fun _ => by simp [hc]⟩, rfl, fun _ => Memory.wf_ofCells _ _, fun hs => ?_, fun _ hs => ?_,
        fun hs => ?_, fun _ q hs => ?_⟩
      · have := hs hw
        rw [hc] at this
        cases this
      · rw [hc] at hs
        cases hs
      · exact absurd hc (hs hw p)
      · rw [hc] at hs
        cases hs
        rfl
    | scanLine =>
      rw [hc] at h
      cases h
    | notBuilt =>
      rw [hc] at h
      cases h
    | undocumented =>
      rw [hc] at h
      cases h
  · rw [s.memWrite_plain addr v hlt hw] at h
    cases h
    exact ⟨⟨hlt, fun h' => absurd h' hw⟩, rfl, fun hwf => Memory.wf_write _ _ _ _ hwf hlt, poked fun h' => absurd h' hw⟩

/-- A write to a writable address succeeds. -/
theorem State.memWrite_of_writable (s : State) (addr : Nat) (v : Byte) (h : s.Writable addr) :
    ∃ t, s.memWrite addr v = .ok t := by
  by_cases hw : inWindow addr
  · rw [s.memWrite_port addr v hw]
    have := h.2 hw
    cases hc : portClass s.par addr <;> simp_all
  · exact ⟨_, s.memWrite_plain addr v h.1 hw⟩

/-- A writable address is readable. -/
theorem State.readable_of_writable {s : State} {addr : Nat} (h : s.Writable addr) : s.Readable addr :=
  ⟨h.1, fun hw => ⟨(h.2 hw).1, (h.2 hw).2.1⟩⟩

/-- A write changes neither what can be written nor what can be read. -/
theorem State.writable_congr {s t : State} (hp : t.par = s.par) (addr : Nat) : t.Writable addr ↔ s.Writable addr := by
  simp only [State.Writable, hp]

/-! ## Operands -/

/-- What a successful write of an operand changes: one register, or MEM alone. -/
theorem State.writeOperand_ok {s t : State} {dst : Operand8} {v : Byte} (h : s.writeOperand dst v = .ok t) :
    (∃ r, dst = .reg r ∧ t = s.setReg r v) ∨ (dst = .hlInd ∧ s.memWrite s.hl.toNat v = .ok t) := by
  cases dst with
  | reg r => exact .inl ⟨r, rfl, by simpa [State.writeOperand] using h.symm⟩
  | hlInd => exact .inr ⟨rfl, h⟩

/-- Everything a read-modify-write can answer. -/
theorem State.modify_next {s t : State} {dst : Operand8} {f : Byte → Byte} {after : Byte → Byte → State → State}
    (h : s.modify dst f after = .next t) :
    ∃ v u, s.readOperand dst = .ok v ∧ s.writeOperand dst (f v) = .ok u ∧ t = after v (f v) u := by
  unfold State.modify at h
  split at h
  · cases h
  · rename_i v hv
    split at h
    · cases h
    · rename_i u hu
      exact ⟨v, u, hv, hu, by cases h; rfl⟩

theorem State.modify_eq {s u : State} {dst : Operand8} {f : Byte → Byte} {after : Byte → Byte → State → State} {v : Byte}
    (hv : s.readOperand dst = .ok v) (hu : s.writeOperand dst (f v) = .ok u) :
    s.modify dst f after = .next (after v (f v) u) := by
  simp only [State.modify, hv, hu]

theorem State.modify_read_error {s : State} {dst : Operand8} {f : Byte → Byte} {after : Byte → Byte → State → State}
    {e : Fault} (hv : s.readOperand dst = .error e) : s.modify dst f after = .fault e := by
  simp only [State.modify, hv]

theorem State.modify_write_error {s : State} {dst : Operand8} {f : Byte → Byte} {after : Byte → Byte → State → State}
    {v : Byte} {e : Fault} (hv : s.readOperand dst = .ok v) (hu : s.writeOperand dst (f v) = .error e) :
    s.modify dst f after = .fault e := by
  simp only [State.modify, hv, hu]

/-! ## Shapes of the meanings -/

theorem storeByte_next {addr : Word} {v : Byte} {after : State → State} {s t : State}
    (h : storeByte addr v after s = .next t) : ∃ u, s.memWrite addr.toNat v = .ok u ∧ t = after u := by
  unfold storeByte at h
  split at h
  · cases h
  · rename_i u hu
    exact ⟨u, hu, by cases h; rfl⟩

theorem loadByte_next {addr : Word} {after : Byte → State → State} {s t : State}
    (h : loadByte addr after s = .next t) : ∃ v, s.memRead addr.toNat = .ok v ∧ t = after v s := by
  unfold loadByte at h
  split at h
  · cases h
  · rename_i v hv
    exact ⟨v, hv, by cases h; rfl⟩

theorem aluRow_next {result : Byte → Byte → Bool → Byte} {flags : Byte → Byte → Flags} {writesA : Bool} {src : Operand8}
    {s t : State} (h : aluRow result flags writesA src s = .next t) :
    ∃ v, s.readOperand src = .ok v ∧
      t = { s with
        a := if writesA then result s.a v s.flags.c else s.a
        flags := flags s.a (result s.a v s.flags.c)
        pc := s.pc + 1 } := by
  unfold aluRow at h
  split at h
  · cases h
  · rename_i v hv
    exact ⟨v, hv, by cases h; rfl⟩

/-! Each shape from what its accesses answer. -/

theorem storeByte_eq {addr : Word} {v : Byte} {after : State → State} {s u : State}
    (h : s.memWrite addr.toNat v = .ok u) : storeByte addr v after s = .next (after u) := by
  rw [storeByte, h]

theorem storeByte_error {addr : Word} {v : Byte} {after : State → State} {s : State} {e : Fault}
    (h : s.memWrite addr.toNat v = .error e) : storeByte addr v after s = .fault e := by
  rw [storeByte, h]

theorem loadByte_eq {addr : Word} {v : Byte} {after : Byte → State → State} {s : State}
    (h : s.memRead addr.toNat = .ok v) : loadByte addr after s = .next (after v s) := by
  rw [loadByte, h]

theorem loadByte_error {addr : Word} {after : Byte → State → State} {s : State} {e : Fault}
    (h : s.memRead addr.toNat = .error e) : loadByte addr after s = .fault e := by
  rw [loadByte, h]

theorem aluRow_error {result : Byte → Byte → Bool → Byte} {flags : Byte → Byte → Flags} {writesA : Bool} {src : Operand8}
    {s : State} {e : Fault} (h : s.readOperand src = .error e) : aluRow result flags writesA src s = .fault e := by
  rw [aluRow, h]

theorem aluRow_eq {result : Byte → Byte → Bool → Byte} {flags : Byte → Byte → Flags} {writesA : Bool} {src : Operand8}
    {s : State} {v : Byte} (h : s.readOperand src = .ok v) :
    aluRow result flags writesA src s =
      .next { s with
        a := if writesA then result s.a v s.flags.c else s.a
        flags := flags s.a (result s.a v s.flags.c)
        pc := s.pc + 1 } := by
  rw [aluRow, h]
  rfl

theorem pushThen_eq {w : Word} {after : State → State} {s u : State} (h : s.push16 w = .ok u) :
    pushThen w after s = .next (after u) := by
  rw [pushThen, h]

theorem pushThen_error {w : Word} {after : State → State} {s : State} {e : Fault} (h : s.push16 w = .error e) :
    pushThen w after s = .fault e := by
  rw [pushThen, h]

theorem popThen_eq {dest : Word → State → State} {s : State} {w : Word} (h : s.top16 = .ok w) :
    popThen dest s = .next (dest w s).dropTop := by
  rw [popThen, h]

theorem popThen_error {dest : Word → State → State} {s : State} {e : Fault} (h : s.top16 = .error e) :
    popThen dest s = .fault e := by
  rw [popThen, h]

/-- The two ways a pop fails. -/
theorem State.top16_low_error {s : State} {e : Fault} (h : s.memRead s.sp.toNat = .error e) : s.top16 = .error e := by
  simp only [State.top16, h]

theorem State.top16_high_error {s : State} {lo : Byte} {e : Fault} (hlo : s.memRead s.sp.toNat = .ok lo)
    (hhi : s.memRead (s.sp.toNat + 1) = .error e) : s.top16 = .error e := by
  simp only [State.top16, hlo, hhi]

theorem State.top16_eq {s : State} {lo hi : Byte} (hlo : s.memRead s.sp.toNat = .ok lo)
    (hhi : s.memRead (s.sp.toNat + 1) = .ok hi) : s.top16 = .ok (cat hi lo) := by
  simp only [State.top16, hlo, hhi]

/-! ## Stack -/

/-- Everything a push that succeeds can do: two writes below the old SP, in order. -/
theorem State.push16_ok {s t : State} {w : Word} (h : s.push16 w = .ok t) :
    ∃ u, { s with sp := s.sp - 2 }.memWrite (s.sp - 2).toNat (loByte w) = .ok u ∧
      u.memWrite ((s.sp - 2).toNat + 1) (hiByte w) = .ok t ∧ t = { s with sp := s.sp - 2, mem := t.mem } ∧
      (Memory.wf s.par.sentinel s.mem → Memory.wf s.par.sentinel t.mem) := by
  unfold State.push16 at h
  simp only at h
  split at h
  · cases h
  · rename_i u hu
    have hu' := State.memWrite_ok hu
    have ht' := State.memWrite_ok h
    have hpar : u.par = s.par := by rw [hu'.2.1]
    refine ⟨u, hu, h, ?_, fun hwf => ?_⟩
    · rw [ht'.2.1, hu'.2.1]
    · have := ht'.2.2.1
      rw [hpar] at this
      exact this (hu'.2.2.1 hwf)

/-- The two ways a push fails: at the low byte, or at the high byte after it. -/
theorem State.push16_low_error {s : State} {w : Word} {e : Fault}
    (h : { s with sp := s.sp - 2 }.memWrite (s.sp - 2).toNat (loByte w) = .error e) : s.push16 w = .error e := by
  simp only [State.push16, h]

theorem State.push16_high_error {s u : State} {w : Word} {e : Fault}
    (hlo : { s with sp := s.sp - 2 }.memWrite (s.sp - 2).toNat (loByte w) = .ok u)
    (hhi : u.memWrite ((s.sp - 2).toNat + 1) (hiByte w) = .error e) : s.push16 w = .error e := by
  simp only [State.push16, hlo, hhi]

/-- A push succeeds where both bytes below SP can be written. -/
theorem State.push16_of_pushable (s : State) (w : Word) (h : s.Pushable) : ∃ t, s.push16 w = .ok t := by
  obtain ⟨u, hu⟩ := State.memWrite_of_writable { s with sp := s.sp - 2 } (s.sp - 2).toNat (loByte w) h.1
  have hpar : u.par = s.par := by rw [(State.memWrite_ok hu).2.1]
  obtain ⟨t, ht⟩ := State.memWrite_of_writable u ((s.sp - 2).toNat + 1) (hiByte w)
    ((State.writable_congr hpar _).mpr h.2)
  exact ⟨t, by simp only [State.push16, hu, ht]⟩

theorem State.top16_ok {s : State} {w : Word} (h : s.top16 = .ok w) :
    ∃ lo hi, s.memRead s.sp.toNat = .ok lo ∧ s.memRead (s.sp.toNat + 1) = .ok hi ∧ w = cat hi lo := by
  unfold State.top16 at h
  split at h
  · cases h
  · rename_i lo hlo
    split at h
    · cases h
    · rename_i hi hhi
      exact ⟨lo, hi, hlo, hhi, by cases h; rfl⟩

theorem pushThen_next {w : Word} {after : State → State} {s t : State} (h : pushThen w after s = .next t) :
    ∃ u, s.push16 w = .ok u ∧ t = after u := by
  unfold pushThen at h
  split at h
  · cases h
  · rename_i u hu
    exact ⟨u, hu, by cases h; rfl⟩

theorem popThen_next {dest : Word → State → State} {s t : State} (h : popThen dest s = .next t) :
    ∃ w, s.top16 = .ok w ∧ t = (dest w s).dropTop := by
  unfold popThen at h
  split at h
  · cases h
  · rename_i w hw
    exact ⟨w, hw, by cases h; rfl⟩

theorem callIf_next {cond : Bool} {target : Word} {s t : State} (h : callIf cond target s = .next t) :
    (cond = true ∧ ∃ u, s.push16 (s.pc + 3) = .ok u ∧ t = u.jumpTo target) ∨ (cond = false ∧ t = s.advance 3) := by
  unfold callIf at h
  split at h
  · rename_i hc
    exact .inl ⟨hc, pushThen_next h⟩
  · rename_i hc
    exact .inr ⟨by simpa using hc, by cases h; rfl⟩

end Sys2Proof.Machine
end

