-- ==== Sys2Proof/Laws/PerInstr.lean ====
section
/-! SUPPORT. Statements made per instruction: one family, one lemma per constructor. -/

namespace Sys2Proof.Laws.EncodeSize

/-- The encoder writes as many bytes as the instruction's size, which is 1, 2 or 3 (spec/30_encoding.md R80, R84). -/
def Statement (i : Instr) : Prop := (encode i).length = i.size ∧ 1 ≤ i.size ∧ i.size ≤ 3

theorem nop : Statement .nop := ⟨rfl, (by decide : 1 ≤ 1), (by decide : 1 ≤ 3)⟩
theorem ldA16Sp (x1 : Word) : Statement (.ldA16Sp x1) := ⟨rfl, (by decide : 1 ≤ 3), (by decide : 3 ≤ 3)⟩
theorem stop : Statement .stop := ⟨rfl, (by decide : 1 ≤ 1), (by decide : 1 ≤ 3)⟩
theorem jr (x1 : Byte) : Statement (.jr x1) := ⟨rfl, (by decide : 1 ≤ 2), (by decide : 2 ≤ 3)⟩
theorem jrNz (x1 : Byte) : Statement (.jrNz x1) := ⟨rfl, (by decide : 1 ≤ 2), (by decide : 2 ≤ 3)⟩
theorem jrZ (x1 : Byte) : Statement (.jrZ x1) := ⟨rfl, (by decide : 1 ≤ 2), (by decide : 2 ≤ 3)⟩
theorem jrNc (x1 : Byte) : Statement (.jrNc x1) := ⟨rfl, (by decide : 1 ≤ 2), (by decide : 2 ≤ 3)⟩
theorem jrC (x1 : Byte) : Statement (.jrC x1) := ⟨rfl, (by decide : 1 ≤ 2), (by decide : 2 ≤ 3)⟩
theorem ldRrD16 (x1 : Pair) (x2 : Word) : Statement (.ldRrD16 x1 x2) := ⟨rfl, (by decide : 1 ≤ 3), (by decide : 3 ≤ 3)⟩
theorem addHlRr (x1 : Pair) : Statement (.addHlRr x1) := ⟨rfl, (by decide : 1 ≤ 1), (by decide : 1 ≤ 3)⟩
theorem ldBcA : Statement .ldBcA := ⟨rfl, (by decide : 1 ≤ 1), (by decide : 1 ≤ 3)⟩
theorem ldDeA : Statement .ldDeA := ⟨rfl, (by decide : 1 ≤ 1), (by decide : 1 ≤ 3)⟩
theorem ldHlIncA : Statement .ldHlIncA := ⟨rfl, (by decide : 1 ≤ 1), (by decide : 1 ≤ 3)⟩
theorem ldHlDecA : Statement .ldHlDecA := ⟨rfl, (by decide : 1 ≤ 1), (by decide : 1 ≤ 3)⟩
theorem ldABc : Statement .ldABc := ⟨rfl, (by decide : 1 ≤ 1), (by decide : 1 ≤ 3)⟩
theorem ldADe : Statement .ldADe := ⟨rfl, (by decide : 1 ≤ 1), (by decide : 1 ≤ 3)⟩
theorem ldAHlInc : Statement .ldAHlInc := ⟨rfl, (by decide : 1 ≤ 1), (by decide : 1 ≤ 3)⟩
theorem ldAHlDec : Statement .ldAHlDec := ⟨rfl, (by decide : 1 ≤ 1), (by decide : 1 ≤ 3)⟩
theorem incRr (x1 : Pair) : Statement (.incRr x1) := ⟨rfl, (by decide : 1 ≤ 1), (by decide : 1 ≤ 3)⟩
theorem decRr (x1 : Pair) : Statement (.decRr x1) := ⟨rfl, (by decide : 1 ≤ 1), (by decide : 1 ≤ 3)⟩
theorem incR (x1 : Reg8) : Statement (.incR x1) := ⟨rfl, (by decide : 1 ≤ 1), (by decide : 1 ≤ 3)⟩
theorem incHl : Statement .incHl := ⟨rfl, (by decide : 1 ≤ 1), (by decide : 1 ≤ 3)⟩
theorem decR (x1 : Reg8) : Statement (.decR x1) := ⟨rfl, (by decide : 1 ≤ 1), (by decide : 1 ≤ 3)⟩
theorem decHl : Statement .decHl := ⟨rfl, (by decide : 1 ≤ 1), (by decide : 1 ≤ 3)⟩
theorem ldRD8 (x1 : Reg8) (x2 : Byte) : Statement (.ldRD8 x1 x2) := ⟨rfl, (by decide : 1 ≤ 2), (by decide : 2 ≤ 3)⟩
theorem ldHlD8 (x1 : Byte) : Statement (.ldHlD8 x1) := ⟨rfl, (by decide : 1 ≤ 2), (by decide : 2 ≤ 3)⟩
theorem family7 (x1 : BitVec 3) : Statement (.family7 x1) := ⟨rfl, (by decide : 1 ≤ 1), (by decide : 1 ≤ 3)⟩
theorem halt : Statement .halt := ⟨rfl, (by decide : 1 ≤ 1), (by decide : 1 ≤ 3)⟩
theorem ldRHl (x1 : Reg8) : Statement (.ldRHl x1) := ⟨rfl, (by decide : 1 ≤ 1), (by decide : 1 ≤ 3)⟩
theorem ldHlR (x1 : Reg8) : Statement (.ldHlR x1) := ⟨rfl, (by decide : 1 ≤ 1), (by decide : 1 ≤ 3)⟩
theorem ldRR (x1 : Reg8) (x2 : Reg8) : Statement (.ldRR x1 x2) := ⟨rfl, (by decide : 1 ≤ 1), (by decide : 1 ≤ 3)⟩
theorem addAR (x1 : Operand8) : Statement (.addAR x1) := ⟨rfl, (by decide : 1 ≤ 1), (by decide : 1 ≤ 3)⟩
theorem adcAR (x1 : Operand8) : Statement (.adcAR x1) := ⟨rfl, (by decide : 1 ≤ 1), (by decide : 1 ≤ 3)⟩
theorem subR (x1 : Operand8) : Statement (.subR x1) := ⟨rfl, (by decide : 1 ≤ 1), (by decide : 1 ≤ 3)⟩
theorem sbcAR (x1 : Operand8) : Statement (.sbcAR x1) := ⟨rfl, (by decide : 1 ≤ 1), (by decide : 1 ≤ 3)⟩
theorem andR (x1 : Operand8) : Statement (.andR x1) := ⟨rfl, (by decide : 1 ≤ 1), (by decide : 1 ≤ 3)⟩
theorem xorR (x1 : Operand8) : Statement (.xorR x1) := ⟨rfl, (by decide : 1 ≤ 1), (by decide : 1 ≤ 3)⟩
theorem orR (x1 : Operand8) : Statement (.orR x1) := ⟨rfl, (by decide : 1 ≤ 1), (by decide : 1 ≤ 3)⟩
theorem cpR (x1 : Operand8) : Statement (.cpR x1) := ⟨rfl, (by decide : 1 ≤ 1), (by decide : 1 ≤ 3)⟩
theorem retNz : Statement .retNz := ⟨rfl, (by decide : 1 ≤ 1), (by decide : 1 ≤ 3)⟩
theorem popBc : Statement .popBc := ⟨rfl, (by decide : 1 ≤ 1), (by decide : 1 ≤ 3)⟩
theorem jpNz (x1 : Word) : Statement (.jpNz x1) := ⟨rfl, (by decide : 1 ≤ 3), (by decide : 3 ≤ 3)⟩
theorem jp (x1 : Word) : Statement (.jp x1) := ⟨rfl, (by decide : 1 ≤ 3), (by decide : 3 ≤ 3)⟩
theorem callNz (x1 : Word) : Statement (.callNz x1) := ⟨rfl, (by decide : 1 ≤ 3), (by decide : 3 ≤ 3)⟩
theorem pushBc : Statement .pushBc := ⟨rfl, (by decide : 1 ≤ 1), (by decide : 1 ≤ 3)⟩
theorem addAD8 (x1 : Byte) : Statement (.addAD8 x1) := ⟨rfl, (by decide : 1 ≤ 2), (by decide : 2 ≤ 3)⟩
theorem rst00 : Statement .rst00 := ⟨rfl, (by decide : 1 ≤ 1), (by decide : 1 ≤ 3)⟩
theorem retZ : Statement .retZ := ⟨rfl, (by decide : 1 ≤ 1), (by decide : 1 ≤ 3)⟩
theorem ret : Statement .ret := ⟨rfl, (by decide : 1 ≤ 1), (by decide : 1 ≤ 3)⟩
theorem jpZ (x1 : Word) : Statement (.jpZ x1) := ⟨rfl, (by decide : 1 ≤ 3), (by decide : 3 ≤ 3)⟩
theorem callZ (x1 : Word) : Statement (.callZ x1) := ⟨rfl, (by decide : 1 ≤ 3), (by decide : 3 ≤ 3)⟩
theorem call (x1 : Word) : Statement (.call x1) := ⟨rfl, (by decide : 1 ≤ 3), (by decide : 3 ≤ 3)⟩
theorem adcAD8 (x1 : Byte) : Statement (.adcAD8 x1) := ⟨rfl, (by decide : 1 ≤ 2), (by decide : 2 ≤ 3)⟩
theorem rst08 : Statement .rst08 := ⟨rfl, (by decide : 1 ≤ 1), (by decide : 1 ≤ 3)⟩
theorem retNc : Statement .retNc := ⟨rfl, (by decide : 1 ≤ 1), (by decide : 1 ≤ 3)⟩
theorem popDe : Statement .popDe := ⟨rfl, (by decide : 1 ≤ 1), (by decide : 1 ≤ 3)⟩
theorem jpNc (x1 : Word) : Statement (.jpNc x1) := ⟨rfl, (by decide : 1 ≤ 3), (by decide : 3 ≤ 3)⟩
theorem undefD3 : Statement .undefD3 := ⟨rfl, (by decide : 1 ≤ 1), (by decide : 1 ≤ 3)⟩
theorem callNc (x1 : Word) : Statement (.callNc x1) := ⟨rfl, (by decide : 1 ≤ 3), (by decide : 3 ≤ 3)⟩
theorem pushDe : Statement .pushDe := ⟨rfl, (by decide : 1 ≤ 1), (by decide : 1 ≤ 3)⟩
theorem subD8 (x1 : Byte) : Statement (.subD8 x1) := ⟨rfl, (by decide : 1 ≤ 2), (by decide : 2 ≤ 3)⟩
theorem rst10 : Statement .rst10 := ⟨rfl, (by decide : 1 ≤ 1), (by decide : 1 ≤ 3)⟩
theorem retC : Statement .retC := ⟨rfl, (by decide : 1 ≤ 1), (by decide : 1 ≤ 3)⟩
theorem reti : Statement .reti := ⟨rfl, (by decide : 1 ≤ 1), (by decide : 1 ≤ 3)⟩
theorem jpC (x1 : Word) : Statement (.jpC x1) := ⟨rfl, (by decide : 1 ≤ 3), (by decide : 3 ≤ 3)⟩
theorem undefDB : Statement .undefDB := ⟨rfl, (by decide : 1 ≤ 1), (by decide : 1 ≤ 3)⟩
theorem callC (x1 : Word) : Statement (.callC x1) := ⟨rfl, (by decide : 1 ≤ 3), (by decide : 3 ≤ 3)⟩
theorem undefDD : Statement .undefDD := ⟨rfl, (by decide : 1 ≤ 1), (by decide : 1 ≤ 3)⟩
theorem sbcAD8 (x1 : Byte) : Statement (.sbcAD8 x1) := ⟨rfl, (by decide : 1 ≤ 2), (by decide : 2 ≤ 3)⟩
theorem rst18 : Statement .rst18 := ⟨rfl, (by decide : 1 ≤ 1), (by decide : 1 ≤ 3)⟩
theorem ldhA8A (x1 : Byte) : Statement (.ldhA8A x1) := ⟨rfl, (by decide : 1 ≤ 2), (by decide : 2 ≤ 3)⟩
theorem popHl : Statement .popHl := ⟨rfl, (by decide : 1 ≤ 1), (by decide : 1 ≤ 3)⟩
theorem ldCA : Statement .ldCA := ⟨rfl, (by decide : 1 ≤ 1), (by decide : 1 ≤ 3)⟩
theorem undefE3 : Statement .undefE3 := ⟨rfl, (by decide : 1 ≤ 1), (by decide : 1 ≤ 3)⟩
theorem undefE4 : Statement .undefE4 := ⟨rfl, (by decide : 1 ≤ 1), (by decide : 1 ≤ 3)⟩
theorem pushHl : Statement .pushHl := ⟨rfl, (by decide : 1 ≤ 1), (by decide : 1 ≤ 3)⟩
theorem andD8 (x1 : Byte) : Statement (.andD8 x1) := ⟨rfl, (by decide : 1 ≤ 2), (by decide : 2 ≤ 3)⟩
theorem rst20 : Statement .rst20 := ⟨rfl, (by decide : 1 ≤ 1), (by decide : 1 ≤ 3)⟩
theorem addSpR8 (x1 : Byte) : Statement (.addSpR8 x1) := ⟨rfl, (by decide : 1 ≤ 2), (by decide : 2 ≤ 3)⟩
theorem jpHl : Statement .jpHl := ⟨rfl, (by decide : 1 ≤ 1), (by decide : 1 ≤ 3)⟩
theorem ldA16A (x1 : Word) : Statement (.ldA16A x1) := ⟨rfl, (by decide : 1 ≤ 3), (by decide : 3 ≤ 3)⟩
theorem undefEB : Statement .undefEB := ⟨rfl, (by decide : 1 ≤ 1), (by decide : 1 ≤ 3)⟩
theorem undefEC : Statement .undefEC := ⟨rfl, (by decide : 1 ≤ 1), (by decide : 1 ≤ 3)⟩
theorem undefED : Statement .undefED := ⟨rfl, (by decide : 1 ≤ 1), (by decide : 1 ≤ 3)⟩
theorem xorD8 (x1 : Byte) : Statement (.xorD8 x1) := ⟨rfl, (by decide : 1 ≤ 2), (by decide : 2 ≤ 3)⟩
theorem rst28 : Statement .rst28 := ⟨rfl, (by decide : 1 ≤ 1), (by decide : 1 ≤ 3)⟩
theorem ldhAA8 (x1 : Byte) : Statement (.ldhAA8 x1) := ⟨rfl, (by decide : 1 ≤ 2), (by decide : 2 ≤ 3)⟩
theorem popAf : Statement .popAf := ⟨rfl, (by decide : 1 ≤ 1), (by decide : 1 ≤ 3)⟩
theorem ldAC : Statement .ldAC := ⟨rfl, (by decide : 1 ≤ 1), (by decide : 1 ≤ 3)⟩
theorem di : Statement .di := ⟨rfl, (by decide : 1 ≤ 1), (by decide : 1 ≤ 3)⟩
theorem undefF4 : Statement .undefF4 := ⟨rfl, (by decide : 1 ≤ 1), (by decide : 1 ≤ 3)⟩
theorem pushAf : Statement .pushAf := ⟨rfl, (by decide : 1 ≤ 1), (by decide : 1 ≤ 3)⟩
theorem orD8 (x1 : Byte) : Statement (.orD8 x1) := ⟨rfl, (by decide : 1 ≤ 2), (by decide : 2 ≤ 3)⟩
theorem rst30 : Statement .rst30 := ⟨rfl, (by decide : 1 ≤ 1), (by decide : 1 ≤ 3)⟩
theorem ldHlSpR8 (x1 : Byte) : Statement (.ldHlSpR8 x1) := ⟨rfl, (by decide : 1 ≤ 2), (by decide : 2 ≤ 3)⟩
theorem ldSpHl : Statement .ldSpHl := ⟨rfl, (by decide : 1 ≤ 1), (by decide : 1 ≤ 3)⟩
theorem ldAA16 (x1 : Word) : Statement (.ldAA16 x1) := ⟨rfl, (by decide : 1 ≤ 3), (by decide : 3 ≤ 3)⟩
theorem ei : Statement .ei := ⟨rfl, (by decide : 1 ≤ 1), (by decide : 1 ≤ 3)⟩
theorem undefFC : Statement .undefFC := ⟨rfl, (by decide : 1 ≤ 1), (by decide : 1 ≤ 3)⟩
theorem undefFD : Statement .undefFD := ⟨rfl, (by decide : 1 ≤ 1), (by decide : 1 ≤ 3)⟩
theorem cpD8 (x1 : Byte) : Statement (.cpD8 x1) := ⟨rfl, (by decide : 1 ≤ 2), (by decide : 2 ≤ 3)⟩
theorem rst38 : Statement .rst38 := ⟨rfl, (by decide : 1 ≤ 1), (by decide : 1 ≤ 3)⟩
theorem rlcR (x1 : Operand8) : Statement (.rlcR x1) := ⟨rfl, (by decide : 1 ≤ 2), (by decide : 2 ≤ 3)⟩
theorem rrcR (x1 : Operand8) : Statement (.rrcR x1) := ⟨rfl, (by decide : 1 ≤ 2), (by decide : 2 ≤ 3)⟩
theorem rlR (x1 : Operand8) : Statement (.rlR x1) := ⟨rfl, (by decide : 1 ≤ 2), (by decide : 2 ≤ 3)⟩
theorem rrR (x1 : Operand8) : Statement (.rrR x1) := ⟨rfl, (by decide : 1 ≤ 2), (by decide : 2 ≤ 3)⟩
theorem slaR (x1 : Operand8) : Statement (.slaR x1) := ⟨rfl, (by decide : 1 ≤ 2), (by decide : 2 ≤ 3)⟩
theorem sraR (x1 : Operand8) : Statement (.sraR x1) := ⟨rfl, (by decide : 1 ≤ 2), (by decide : 2 ≤ 3)⟩
theorem swapR (x1 : Operand8) : Statement (.swapR x1) := ⟨rfl, (by decide : 1 ≤ 2), (by decide : 2 ≤ 3)⟩
theorem srlR (x1 : Operand8) : Statement (.srlR x1) := ⟨rfl, (by decide : 1 ≤ 2), (by decide : 2 ≤ 3)⟩
theorem bit7H : Statement .bit7H := ⟨rfl, (by decide : 1 ≤ 2), (by decide : 2 ≤ 3)⟩
theorem bitBR (x1 : BitVec 3) (x2 : Operand8) : Statement (.bitBR x1 x2) := ⟨rfl, (by decide : 1 ≤ 2), (by decide : 2 ≤ 3)⟩
theorem resBR (x1 : BitVec 3) (x2 : Operand8) : Statement (.resBR x1 x2) := ⟨rfl, (by decide : 1 ≤ 2), (by decide : 2 ≤ 3)⟩
theorem setBR (x1 : BitVec 3) (x2 : Operand8) : Statement (.setBR x1 x2) := ⟨rfl, (by decide : 1 ≤ 2), (by decide : 2 ≤ 3)⟩

end Sys2Proof.Laws.EncodeSize
end

