-- ==== Sys2Proof/Laws/Step.lean ====
section
/-! SUPPORT. What a step and an instruction can do, said once: the inversion of the fetch and of the step, and what every
instruction that completes keeps. -/

namespace Sys2Proof.Machine

/-! ## Fetch and step -/

theorem State.fetchWindow_ok {s : State} {w : Byte × Byte × Byte} (h : s.fetchWindow = .ok w) :
    s.memRead s.pc.toNat = .ok w.1 ∧ s.memRead (s.pc.toNat + 1) = .ok w.2.1 ∧ s.memRead (s.pc.toNat + 2) = .ok w.2.2 := by
  unfold State.fetchWindow at h
  split at h
  · cases h
  · rename_i op hop
    split at h
    · cases h
    · rename_i b1 hb1
      split at h
      · cases h
      · rename_i b2 hb2
        cases h
        exact ⟨hop, hb1, hb2⟩

theorem State.fetchWindow_eq {s : State} {op b1 b2 : Byte} (h0 : s.memRead s.pc.toNat = .ok op)
    (h1 : s.memRead (s.pc.toNat + 1) = .ok b1) (h2 : s.memRead (s.pc.toNat + 2) = .ok b2) :
    s.fetchWindow = .ok (op, b1, b2) := by
  simp only [State.fetchWindow, h0, h1, h2]

/-- A fetch that gives an instruction has passed every check of R267 before the classification. -/
theorem State.fetchDecode_ok {s : State} {i : Instr} (h : s.fetchDecode = .ok i) :
    s.prevPc ≠ some s.pc ∧ s.pc.toNat ≤ Config.lastFetch ∧
      ∃ op b1 b2, s.fetchWindow = .ok (op, b1, b2) ∧ op ≠ s.par.sentinel ∧ i = classify op b1 b2 := by
  unfold State.fetchDecode at h
  split at h
  · cases h
  · rename_i hprev
    split at h
    · cases h
    · rename_i hpc
      split at h
      · cases h
      · rename_i op b1 b2 hw
        split at h
        · cases h
        · rename_i hs
          cases h
          exact ⟨hprev, Nat.not_lt.mp hpc, op, b1, b2, hw, hs, rfl⟩

theorem State.fetchDecode_eq {s : State} {op b1 b2 : Byte} (hprev : s.prevPc ≠ some s.pc)
    (hpc : s.pc.toNat ≤ Config.lastFetch) (hw : s.fetchWindow = .ok (op, b1, b2)) (hs : op ≠ s.par.sentinel) :
    s.fetchDecode = .ok (classify op b1 b2) := by
  rw [State.fetchDecode, if_neg hprev, if_neg (Nat.not_lt.mpr hpc), hw]
  simp only [if_neg hs, decode]

/-- A step that completes has fetched an instruction and run it with PC recorded. -/
theorem step_next {s t : State} (h : step s = .next t) :
    s.fault = none ∧ ∃ i, s.fetchDecode = .ok i ∧ exec i s.recordPc = .next t := by
  unfold step at h
  split at h
  · cases h
  · rename_i hf
    split at h
    · cases h
    · rename_i i hi
      exact ⟨hf, i, hi, h⟩

/-! ## What every completed instruction keeps -/

/-- The loop state and the parameters are the same, and the canonical form of MEM is kept. -/
def State.Kept (s t : State) : Prop :=
  s.SameSession t ∧ (Memory.wf s.par.sentinel s.mem → Memory.wf s.par.sentinel t.mem)

theorem State.Kept.refl (s : State) : s.Kept s := ⟨⟨rfl, rfl, rfl, rfl⟩, id⟩

theorem State.Kept.trans {s t u : State} (h : s.Kept t) (h' : t.Kept u) : s.Kept u := by
  obtain ⟨⟨a1, a2, a3, a4⟩, a5⟩ := h
  obtain ⟨⟨b1, b2, b3, b4⟩, b5⟩ := h'
  refine ⟨⟨b1.trans a1, b2.trans a2, b3.trans a3, b4.trans a4⟩, fun hwf => ?_⟩
  rw [a4] at b5
  exact b5 (a5 hwf)

theorem State.kept_memWrite {s t : State} {addr : Nat} {v : Byte} (h : s.memWrite addr v = .ok t) : s.Kept t := by
  obtain ⟨-, heq, hwf, -⟩ := State.memWrite_ok h
  exact ⟨by rw [heq]; exact ⟨rfl, rfl, rfl, rfl⟩, hwf⟩

theorem State.kept_setReg (s : State) (r : Reg8) (v : Byte) : s.Kept (s.setReg r v) :=
  ⟨⟨by simp, by simp, by simp, by simp⟩, by simp⟩

theorem State.kept_setPair (s : State) (p : Pair) (w : Word) : s.Kept (s.setPair p w) :=
  ⟨⟨by simp, by simp, by simp, by simp⟩, by simp⟩

theorem State.kept_advance {s t : State} {n : Word} (h : s.Kept t) : s.Kept (t.advance n) := h

theorem State.kept_setHl {s t : State} {w : Word} (h : s.Kept t) : s.Kept (t.setHl w) := h

theorem State.kept_writeOperand {s t : State} {dst : Operand8} {v : Byte} (h : s.writeOperand dst v = .ok t) :
    s.Kept t := by
  rcases State.writeOperand_ok h with ⟨r, -, rfl⟩ | ⟨-, hw⟩
  · exact s.kept_setReg r v
  · exact State.kept_memWrite hw

theorem State.kept_push16 {s t : State} {w : Word} (h : s.push16 w = .ok t) : s.Kept t := by
  obtain ⟨u, -, -, heq, hwf⟩ := State.push16_ok h
  exact ⟨by rw [heq]; exact ⟨rfl, rfl, rfl, rfl⟩, hwf⟩

/-! The same for the shapes of the meanings. -/

theorem kept_storeByte {addr : Word} {v : Byte} {after : State → State} {s t : State}
    (h : storeByte addr v after s = .next t) (ha : ∀ u, s.Kept u → s.Kept (after u)) : s.Kept t := by
  obtain ⟨u, hu, rfl⟩ := storeByte_next h
  exact ha u (State.kept_memWrite hu)

theorem kept_loadByte {addr : Word} {after : Byte → State → State} {s t : State}
    (h : loadByte addr after s = .next t) (ha : ∀ v, s.Kept (after v s)) : s.Kept t := by
  obtain ⟨v, -, rfl⟩ := loadByte_next h
  exact ha v

theorem kept_modify {dst : Operand8} {f : Byte → Byte} {after : Byte → Byte → State → State} {s t : State}
    (h : s.modify dst f after = .next t) (ha : ∀ v r u, s.Kept u → s.Kept (after v r u)) : s.Kept t := by
  obtain ⟨v, u, -, hu, rfl⟩ := State.modify_next h
  exact ha v _ u (State.kept_writeOperand hu)

theorem kept_aluRow {result : Byte → Byte → Bool → Byte} {flags : Byte → Byte → Flags} {writesA : Bool} {src : Operand8}
    {s t : State} (h : aluRow result flags writesA src s = .next t) : s.Kept t := by
  obtain ⟨v, -, rfl⟩ := aluRow_next h
  exact State.Kept.refl s

theorem kept_pushThen {w : Word} {after : State → State} {s t : State} (h : pushThen w after s = .next t)
    (ha : ∀ u, s.Kept u → s.Kept (after u)) : s.Kept t := by
  obtain ⟨u, hu, rfl⟩ := pushThen_next h
  exact ha u (State.kept_push16 hu)

theorem kept_popThen {dest : Word → State → State} {s t : State} (h : popThen dest s = .next t)
    (ha : ∀ w, s.Kept (dest w s)) : s.Kept t := by
  obtain ⟨w, -, rfl⟩ := popThen_next h
  exact ha w

theorem kept_callIf {cond : Bool} {target : Word} {s t : State} (h : callIf cond target s = .next t) : s.Kept t := by
  rcases callIf_next h with ⟨-, u, hu, rfl⟩ | ⟨-, rfl⟩
  · exact (show s.Kept u from State.kept_push16 hu)
  · exact State.Kept.refl s

theorem kept_relativeJump {cond : Bool} {off : Byte} {s t : State} (h : relativeJump cond off s = .next t) : s.Kept t := by
  cases h
  split <;> exact State.Kept.refl s

/-- Whatever instruction completes, the loop state, `prev_pc`, the latched error and the parameters are the same, and the
canonical form of MEM is kept. -/
theorem exec_kept {i : Instr} {s t : State} (h : exec i s = .next t) : s.Kept t := by
  cases i with
  | ldRR rd rs => cases h; exact s.kept_setReg rd _
  | ldRD8 rd n => cases h; exact s.kept_setReg rd n
  | ldRrD16 p w => cases h; exact s.kept_setPair p w
  | incRr p => cases h; exact s.kept_setPair p _
  | decRr p => cases h; exact s.kept_setPair p _
  | ldRHl rd => rw [exec_ldRHl] at h; exact kept_loadByte h fun v => s.kept_setReg rd v
  | ldABc => rw [exec_ldABc] at h; exact kept_loadByte h fun v => s.kept_setReg .a v
  | ldADe => rw [exec_ldADe] at h; exact kept_loadByte h fun v => s.kept_setReg .a v
  | ldAHlInc => rw [exec_ldAHlInc] at h; exact kept_loadByte h fun v => s.kept_setReg .a v
  | ldAHlDec => rw [exec_ldAHlDec] at h; exact kept_loadByte h fun v => s.kept_setReg .a v
  | ldhAA8 n => rw [exec_ldhAA8] at h; exact kept_loadByte h fun v => s.kept_setReg .a v
  | ldAA16 a => rw [exec_ldAA16] at h; exact kept_loadByte h fun v => s.kept_setReg .a v
  | ldHlR rs => rw [exec_ldHlR] at h; exact kept_storeByte h fun _ hu => hu
  | ldHlD8 n => rw [exec_ldHlD8] at h; exact kept_storeByte h fun _ hu => hu
  | ldBcA => rw [exec_ldBcA] at h; exact kept_storeByte h fun _ hu => hu
  | ldDeA => rw [exec_ldDeA] at h; exact kept_storeByte h fun _ hu => hu
  | ldHlIncA => rw [exec_ldHlIncA] at h; exact kept_storeByte h fun _ hu => hu
  | ldHlDecA => rw [exec_ldHlDecA] at h; exact kept_storeByte h fun _ hu => hu
  | ldhA8A n => rw [exec_ldhA8A] at h; exact kept_storeByte h fun _ hu => hu
  | ldA16A a => rw [exec_ldA16A] at h; exact kept_storeByte h fun _ hu => hu
  | incR rd => rw [exec_incR] at h; exact kept_modify h fun _ _ _ hu => hu
  | decR rd => rw [exec_decR] at h; exact kept_modify h fun _ _ _ hu => hu
  | incHl => rw [exec_incHl] at h; exact kept_modify h fun _ _ _ hu => hu
  | decHl => rw [exec_decHl] at h; exact kept_modify h fun _ _ _ hu => hu
  | rlcR src => rw [exec_rlcR] at h; exact kept_modify h fun _ _ _ hu => hu
  | rlR src => rw [exec_rlR] at h; exact kept_modify h fun _ _ _ hu => hu
  | resBR b src => rw [exec_resBR] at h; exact kept_modify h fun _ _ _ hu => hu
  | setBR b src => rw [exec_setBR] at h; exact kept_modify h fun _ _ _ hu => hu
  | addAR src => rw [exec_addAR] at h; exact kept_aluRow h
  | adcAR src => rw [exec_adcAR] at h; exact kept_aluRow h
  | subR src => rw [exec_subR] at h; exact kept_aluRow h
  | sbcAR src => rw [exec_sbcAR] at h; exact kept_aluRow h
  | andR src => rw [exec_andR] at h; exact kept_aluRow h
  | xorR src => rw [exec_xorR] at h; exact kept_aluRow h
  | orR src => rw [exec_orR] at h; exact kept_aluRow h
  | cpR src => rw [exec_cpR] at h; exact kept_aluRow h
  | pushBc => exact kept_pushThen h fun _ hu => hu
  | pushDe => exact kept_pushThen h fun _ hu => hu
  | pushHl => exact kept_pushThen h fun _ hu => hu
  | pushAf => exact kept_pushThen h fun _ hu => hu
  | popBc => rw [exec_popBc] at h; exact kept_popThen h fun _ => State.Kept.refl s
  | popDe => rw [exec_popDe] at h; exact kept_popThen h fun _ => State.Kept.refl s
  | popHl => rw [exec_popHl] at h; exact kept_popThen h fun _ => State.Kept.refl s
  | popAf => rw [exec_popAf] at h; exact kept_popThen h fun _ => State.Kept.refl s
  | ret => rw [exec_ret] at h; exact kept_popThen h fun _ => State.Kept.refl s
  | reti => rw [exec_reti] at h; exact kept_popThen h fun _ => State.Kept.refl s
  | call a => exact kept_pushThen h fun _ hu => hu
  | callNz a => exact kept_callIf h
  | callZ a => exact kept_callIf h
  | callNc a => exact kept_callIf h
  | callC a => exact kept_callIf h
  | jr off => exact kept_relativeJump h
  | jrNz off => exact kept_relativeJump h
  | jrZ off => exact kept_relativeJump h
  | jrNc off => exact kept_relativeJump h
  | jrC off => exact kept_relativeJump h
  | nop => cases h; exact State.Kept.refl s
  | jp a => cases h; exact State.Kept.refl s
  | cpD8 n => cases h; exact State.Kept.refl s
  | bit7H => cases h; exact State.Kept.refl s
  | di => cases h; exact State.Kept.refl s
  | ei => cases h; exact State.Kept.refl s
  | _ => cases h

end Sys2Proof.Machine
end

