-- ==== Sys2Proof/Tests/Slice0.lean ====
section
/-! SUPPORT. Tests, each a named theorem: the well-formedness smoke, a word written out from the spec's encoding for every
constructor, one-step vectors of spec/95_test_vectors.md (their ids stand in the comments), and a witness of the
hypotheses of every statement. -/

namespace Sys2Proof.Tests

open Sys2Proof Sys2Proof.Machine

/-! ## Helpers -/

/-- What holds of the next state, where there is one. -/
def after (r : Answer) (f : State → List Nat) : Option (List Nat) :=
  match r with
  | .next t => some (f t)
  | _ => none

/-- The fault, where there is one. -/
def stop (r : Answer) : Option Fault :=
  match r with
  | .fault e => some e
  | _ => none

/-- An image at address 0, then single cells over it, as the cells of a memory. -/
def cellsOf (base : Nat) : List Byte → List Host.Cell
  | [] => []
  | v :: rest => (base, v) :: cellsOf (base + 1) rest

/-- A state with the bytes at PC and single cells over them. -/
def load (bytes : List Byte) (cells : List Host.Cell) (s : State) : State :=
  { s with mem := Memory.ofCells s.par.sentinel (cellsOf s.pc.toNat bytes ++ cells) }

/-- One step on the bytes at PC. -/
def one (bytes : List Byte) (cells : List Host.Cell) (s : State) : Answer := step (load bytes cells s)

/-- All registers zero, F zero, SP zero, PC zero: the default of section 0 of the vectors. -/
def blank : State := State.reset

/-- F from a byte. -/
def flagsOf (v : Byte) : Flags := Flags.ofByte v

/-- A map with one port of each class (the classes are R58's, the addresses are for the tests). -/
def somePorts : List (Nat × Config.PortClass) :=
  [(0xFF11, .sound), (0xFF42, .stored), (0xFF44, .scanLine), (0xFF50, .notBuilt), (0xFF46, .special 1)]

/-- `blank` with that map. -/
def mapped : State := { blank with par := { blank.par with ports := somePorts } }

/-! ## Well-formedness smoke: the one check refuses the one ill-formed term -/

theorem test_wf_refuses_bit_7_h_as_bitBR : Instr.wf (.bitBR 7 (.reg .h)) = false := by decide
theorem test_wf_accepts_the_neighbours :
    (Instr.bitBR 6 (.reg .h)).wf ∧ (Instr.bitBR 7 (.reg .l)).wf ∧ (Instr.bitBR 7 .hlInd).wf ∧ Instr.bit7H.wf := by decide

/-! ## Decoding: every constructor from a word of the spec's encoding (spec/30_encoding.md R98, R108) -/

theorem test_decode_rejects_a_short_window : decode [0x00, 0x00] = .error .shortWindow := rfl

/-- R87. -/
theorem test_decode_family0_of_quadrant_1 :
    decode [0x00, 0x00, 0x00] = .ok .nop ∧
    decode [0x08, 0x34, 0x12] = .ok (.ldA16Sp 0x1234) ∧
    decode [0x10, 0x00, 0x00] = .ok .stop ∧
    decode [0x18, 0x05, 0x00] = .ok (.jr 5) ∧
    decode [0x20, 0x05, 0x00] = .ok (.jrNz 5) ∧
    decode [0x28, 0x05, 0x00] = .ok (.jrZ 5) ∧
    decode [0x30, 0x05, 0x00] = .ok (.jrNc 5) ∧
    decode [0x38, 0x05, 0x00] = .ok (.jrC 5) := by
  exact ⟨rfl, rfl, rfl, rfl, rfl, rfl, rfl, rfl⟩

/-- R88, R89, R90. -/
theorem test_decode_families_1_to_3 :
    decode [0x01, 0xCD, 0xAB] = .ok (.ldRrD16 .bc 0xABCD) ∧
    decode [0x31, 0xFE, 0xFF] = .ok (.ldRrD16 .sp 0xFFFE) ∧
    decode [0x29, 0x00, 0x00] = .ok (.addHlRr .hl) ∧
    decode [0x02, 0x00, 0x00] = .ok .ldBcA ∧
    decode [0x12, 0x00, 0x00] = .ok .ldDeA ∧
    decode [0x22, 0x00, 0x00] = .ok .ldHlIncA ∧
    decode [0x32, 0x00, 0x00] = .ok .ldHlDecA ∧
    decode [0x0A, 0x00, 0x00] = .ok .ldABc ∧
    decode [0x1A, 0x00, 0x00] = .ok .ldADe ∧
    decode [0x2A, 0x00, 0x00] = .ok .ldAHlInc ∧
    decode [0x3A, 0x00, 0x00] = .ok .ldAHlDec ∧
    decode [0x13, 0x00, 0x00] = .ok (.incRr .de) ∧
    decode [0x3B, 0x00, 0x00] = .ok (.decRr .sp) := by
  exact ⟨rfl, rfl, rfl, rfl, rfl, rfl, rfl, rfl, rfl, rfl, rfl, rfl, rfl⟩

/-- R91, R92. -/
theorem test_decode_families_4_to_7 :
    decode [0x3C, 0x00, 0x00] = .ok (.incR .a) ∧
    decode [0x34, 0x00, 0x00] = .ok .incHl ∧
    decode [0x2D, 0x00, 0x00] = .ok (.decR .l) ∧
    decode [0x35, 0x00, 0x00] = .ok .decHl ∧
    decode [0x06, 0xDD, 0x00] = .ok (.ldRD8 .b 0xDD) ∧
    decode [0x36, 0x0F, 0x00] = .ok (.ldHlD8 0x0F) ∧
    decode [0x27, 0x00, 0x00] = .ok (.family7 4) := by
  exact ⟨rfl, rfl, rfl, rfl, rfl, rfl, rfl⟩

/-- R93, R94. -/
theorem test_decode_quadrant_2 :
    decode [0x76, 0x00, 0x00] = .ok .halt ∧
    decode [0x66, 0x00, 0x00] = .ok (.ldRHl .h) ∧
    decode [0x75, 0x00, 0x00] = .ok (.ldHlR .l) ∧
    decode [0x78, 0x00, 0x00] = .ok (.ldRR .a .b) ∧
    decode [0x86, 0x00, 0x00] = .ok (.addAR .hlInd) ∧
    decode [0x88, 0x00, 0x00] = .ok (.adcAR (.reg .b)) ∧
    decode [0x97, 0x00, 0x00] = .ok (.subR (.reg .a)) ∧
    decode [0x9A, 0x00, 0x00] = .ok (.sbcAR (.reg .d)) ∧
    decode [0xA3, 0x00, 0x00] = .ok (.andR (.reg .e)) ∧
    decode [0xAC, 0x00, 0x00] = .ok (.xorR (.reg .h)) ∧
    decode [0xB1, 0x00, 0x00] = .ok (.orR (.reg .c)) ∧
    decode [0xBE, 0x00, 0x00] = .ok (.cpR .hlInd) := by
  exact ⟨rfl, rfl, rfl, rfl, rfl, rfl, rfl, rfl, rfl, rfl, rfl, rfl⟩

/-- R95, R241 to R244. -/
theorem test_decode_row_Cx :
    decode [0xC0, 0x00, 0x00] = .ok .retNz ∧
    decode [0xC1, 0x00, 0x00] = .ok .popBc ∧
    decode [0xC2, 0x34, 0x12] = .ok (.jpNz 0x1234) ∧
    decode [0xC3, 0x50, 0x01] = .ok (.jp 0x0150) ∧
    decode [0xC4, 0x34, 0x12] = .ok (.callNz 0x1234) ∧
    decode [0xC5, 0x00, 0x00] = .ok .pushBc ∧
    decode [0xC6, 0x07, 0x00] = .ok (.addAD8 7) ∧
    decode [0xC7, 0x00, 0x00] = .ok .rst00 ∧
    decode [0xC8, 0x00, 0x00] = .ok .retZ ∧
    decode [0xC9, 0x00, 0x00] = .ok .ret ∧
    decode [0xCA, 0x34, 0x12] = .ok (.jpZ 0x1234) ∧
    decode [0xCC, 0x34, 0x12] = .ok (.callZ 0x1234) ∧
    decode [0xCD, 0x34, 0x12] = .ok (.call 0x1234) ∧
    decode [0xCE, 0x07, 0x00] = .ok (.adcAD8 7) ∧
    decode [0xCF, 0x00, 0x00] = .ok .rst08 := by
  exact ⟨rfl, rfl, rfl, rfl, rfl, rfl, rfl, rfl, rfl, rfl, rfl, rfl, rfl, rfl, rfl⟩

/-- R95, R241 to R246. -/
theorem test_decode_row_Dx :
    decode [0xD0, 0x00, 0x00] = .ok .retNc ∧
    decode [0xD1, 0x00, 0x00] = .ok .popDe ∧
    decode [0xD2, 0x34, 0x12] = .ok (.jpNc 0x1234) ∧
    decode [0xD3, 0x00, 0x00] = .ok .undefD3 ∧
    decode [0xD4, 0x34, 0x12] = .ok (.callNc 0x1234) ∧
    decode [0xD5, 0x00, 0x00] = .ok .pushDe ∧
    decode [0xD6, 0x07, 0x00] = .ok (.subD8 7) ∧
    decode [0xD7, 0x00, 0x00] = .ok .rst10 ∧
    decode [0xD8, 0x00, 0x00] = .ok .retC ∧
    decode [0xD9, 0x00, 0x00] = .ok .reti ∧
    decode [0xDA, 0x34, 0x12] = .ok (.jpC 0x1234) ∧
    decode [0xDB, 0x00, 0x00] = .ok .undefDB ∧
    decode [0xDC, 0x34, 0x12] = .ok (.callC 0x1234) ∧
    decode [0xDD, 0x00, 0x00] = .ok .undefDD ∧
    decode [0xDE, 0x07, 0x00] = .ok (.sbcAD8 7) ∧
    decode [0xDF, 0x00, 0x00] = .ok .rst18 := by
  exact ⟨rfl, rfl, rfl, rfl, rfl, rfl, rfl, rfl, rfl, rfl, rfl, rfl, rfl, rfl, rfl, rfl⟩

/-- R95, R243 to R246. -/
theorem test_decode_row_Ex :
    decode [0xE0, 0x80, 0x00] = .ok (.ldhA8A 0x80) ∧
    decode [0xE1, 0x00, 0x00] = .ok .popHl ∧
    decode [0xE2, 0x00, 0x00] = .ok .ldCA ∧
    decode [0xE3, 0x00, 0x00] = .ok .undefE3 ∧
    decode [0xE4, 0x00, 0x00] = .ok .undefE4 ∧
    decode [0xE5, 0x00, 0x00] = .ok .pushHl ∧
    decode [0xE6, 0x07, 0x00] = .ok (.andD8 7) ∧
    decode [0xE7, 0x00, 0x00] = .ok .rst20 ∧
    decode [0xE8, 0x07, 0x00] = .ok (.addSpR8 7) ∧
    decode [0xE9, 0x00, 0x00] = .ok .jpHl ∧
    decode [0xEA, 0x00, 0xC0] = .ok (.ldA16A 0xC000) ∧
    decode [0xEB, 0x00, 0x00] = .ok .undefEB ∧
    decode [0xEC, 0x00, 0x00] = .ok .undefEC ∧
    decode [0xED, 0x00, 0x00] = .ok .undefED ∧
    decode [0xEE, 0x07, 0x00] = .ok (.xorD8 7) ∧
    decode [0xEF, 0x00, 0x00] = .ok .rst28 := by
  exact ⟨rfl, rfl, rfl, rfl, rfl, rfl, rfl, rfl, rfl, rfl, rfl, rfl, rfl, rfl, rfl, rfl⟩

/-- R95, R243 to R246. -/
theorem test_decode_row_Fx :
    decode [0xF0, 0xFF, 0x00] = .ok (.ldhAA8 0xFF) ∧
    decode [0xF1, 0x00, 0x00] = .ok .popAf ∧
    decode [0xF2, 0x00, 0x00] = .ok .ldAC ∧
    decode [0xF3, 0x00, 0x00] = .ok .di ∧
    decode [0xF4, 0x00, 0x00] = .ok .undefF4 ∧
    decode [0xF5, 0x00, 0x00] = .ok .pushAf ∧
    decode [0xF6, 0x07, 0x00] = .ok (.orD8 7) ∧
    decode [0xF7, 0x00, 0x00] = .ok .rst30 ∧
    decode [0xF8, 0x07, 0x00] = .ok (.ldHlSpR8 7) ∧
    decode [0xF9, 0x00, 0x00] = .ok .ldSpHl ∧
    decode [0xFA, 0x01, 0x00] = .ok (.ldAA16 0x0001) ∧
    decode [0xFB, 0x00, 0x00] = .ok .ei ∧
    decode [0xFC, 0x00, 0x00] = .ok .undefFC ∧
    decode [0xFD, 0x00, 0x00] = .ok .undefFD ∧
    decode [0xFE, 0x90, 0x00] = .ok (.cpD8 0x90) ∧
    decode [0xFF, 0x00, 0x00] = .ok .rst38 := by
  exact ⟨rfl, rfl, rfl, rfl, rfl, rfl, rfl, rfl, rfl, rfl, rfl, rfl, rfl, rfl, rfl, rfl⟩

/-- R97, R214, R217. -/
theorem test_decode_prefixed :
    decode [0xCB, 0x00, 0x00] = .ok (.rlcR (.reg .b)) ∧
    decode [0xCB, 0x08, 0x00] = .ok (.rrcR (.reg .b)) ∧
    decode [0xCB, 0x17, 0x00] = .ok (.rlR (.reg .a)) ∧
    decode [0xCB, 0x19, 0x00] = .ok (.rrR (.reg .c)) ∧
    decode [0xCB, 0x20, 0x00] = .ok (.slaR (.reg .b)) ∧
    decode [0xCB, 0x28, 0x00] = .ok (.sraR (.reg .b)) ∧
    decode [0xCB, 0x37, 0x00] = .ok (.swapR (.reg .a)) ∧
    decode [0xCB, 0x3F, 0x00] = .ok (.srlR (.reg .a)) ∧
    decode [0xCB, 0x7C, 0x00] = .ok .bit7H ∧
    decode [0xCB, 0x7E, 0x00] = .ok (.bitBR 7 .hlInd) ∧
    decode [0xCB, 0xBF, 0x00] = .ok (.resBR 7 (.reg .a)) ∧
    decode [0xCB, 0xDB, 0x00] = .ok (.setBR 3 (.reg .e)) := by
  exact ⟨rfl, rfl, rfl, rfl, rfl, rfl, rfl, rfl, rfl, rfl, rfl, rfl⟩

/-- The table's numbering (spec/30_encoding.md R108; notes/assumptions/12.md): a CB row has 0xCB in bits 15 to 8, any other
row its first byte in bits 7 to 0, operand bytes above `nbits` being 0. -/
theorem test_table_words :
    decodeTableWord 8 0x78 = some (.ldRR .a .b) ∧ decodeTableWord 16 0xCB7C = some .bit7H ∧
    decodeTableWord 24 0xABCD01 = some (.ldRrD16 .bc 0xABCD) ∧ decodeTableWord 16 0x443E = some (.ldRD8 .a 0x44) ∧
    decodeTableWord 8 0xCD = some (.call 0) ∧ decodeTableWord 16 0xCB3E = some (.srlR .hlInd) := by
  exact ⟨rfl, rfl, rfl, rfl, rfl, rfl⟩

/-- After reset with a word placed, the next step runs it. -/
theorem test_placed_word_runs :
    after (step (State.reset.withFetchWord 16 0x443E)) (fun t => [t.a.toNat, t.pc.toNat]) = some [0x44, 2] ∧
    stop (step (State.reset.withFetchWord 8 0x76)) = some (.unimplemented (.opcode 0x76) 0) ∧
    after (step (State.reset.withFetchWord 16 0xCBC7)) (fun t => [t.a.toNat, t.pc.toNat]) = some [1, 2] := by decide

/-! ## One step of each instruction (spec/95_test_vectors.md) -/

/-- X1. -/
theorem test_nop :
    after (one [0x00] [] { blank with flags := flagsOf 0xF0 })
      (fun t => [t.flags.toByte.toNat, t.pc.toNat, t.a.toNat]) = some [0xF0, 0x01, 0x00] := by decide
/-- M1. -/
theorem test_ldRR :
    after (one [0x78] [] { blank with b := 0x12, flags := flagsOf 0xF0 })
      (fun t => [t.a.toNat, t.b.toNat, t.flags.toByte.toNat, t.pc.toNat]) = some [0x12, 0x12, 0xF0, 0x01] := by decide
/-- M2. -/
theorem test_ldRR_same :
    after (one [0x40] [] { blank with b := 0x9A, flags := flagsOf 0x50 })
      (fun t => [t.b.toNat, t.flags.toByte.toNat, t.pc.toNat]) = some [0x9A, 0x50, 0x01] := by decide
/-- M3. -/
theorem test_ldRHl_address_before_write :
    after (one [0x66] [(0xC000, 0x12)] { blank with h := 0xC0 })
      (fun t => [t.h.toNat, t.l.toNat, t.pc.toNat]) = some [0x12, 0x00, 0x01] := by decide
/-- M4. -/
theorem test_ldHlR :
    after (one [0x75] [] { blank with h := 0xC0, l := 0x34 })
      (fun t => [(t.peek 0xC034).toNat, t.pc.toNat]) = some [0x34, 0x01] := by decide
/-- M13. -/
theorem test_ldHlR_over_program :
    after (one [0x70] [] { blank with b := 0x7E })
      (fun t => [(t.peek 0x0000).toNat, t.pc.toNat]) = some [0x7E, 0x01] := by decide
/-- M5. -/
theorem test_ldRrD16_sp :
    after (one [0x31, 0xFE, 0xFF] [] { blank with sp := 0x1234, flags := flagsOf 0xA0 })
      (fun t => [t.sp.toNat, t.flags.toByte.toNat, t.pc.toNat]) = some [0xFFFE, 0xA0, 0x03] := by decide
/-- S6. -/
theorem test_ldRrD16_bc :
    after (one [0x01, 0xCD, 0xAB] [] blank)
      (fun t => [t.b.toNat, t.c.toNat, t.pc.toNat]) = some [0xAB, 0xCD, 0x03] := by decide
/-- M6. -/
theorem test_ldHlIncA_wraps :
    after (one [0x22] [] { blank with a := 0x77, h := 0xFF, l := 0xFF })
      (fun t => [(t.peek 0xFFFF).toNat, t.h.toNat, t.l.toNat, t.pc.toNat]) = some [0x77, 0x00, 0x00, 0x01] := by decide
/-- S5. -/
theorem test_ldHlDecA_wraps :
    after (one [0x32] [] { blank with a := 0x55, flags := flagsOf 0xF0 })
      (fun t => [(t.peek 0x0000).toNat, t.h.toNat, t.l.toNat, t.flags.toByte.toNat, t.pc.toNat]) = some [0x55, 0xFF, 0xFF, 0xF0, 0x01] := by decide
/-- M7. -/
theorem test_ldAHlDec :
    after (one [0x3A] [] blank)
      (fun t => [t.a.toNat, t.h.toNat, t.l.toNat, t.pc.toNat]) = some [0x3A, 0xFF, 0xFF, 0x01] := by decide
/-- M8. -/
theorem test_ldAHlInc :
    after (one [0x2A] [(0xFFFF, 0x10)] { blank with h := 0xFF, l := 0xFF })
      (fun t => [t.a.toNat, t.h.toNat, t.l.toNat, t.pc.toNat]) = some [0x10, 0x00, 0x00, 0x01] := by decide
/-- M9. -/
theorem test_ldHlD8 :
    after (one [0x36, 0x0F] [] { blank with h := 0xC0, l := 0x01 })
      (fun t => [(t.peek 0xC001).toNat, t.pc.toNat]) = some [0x0F, 0x02] := by decide
/-- M10. -/
theorem test_ldADe :
    after (one [0x1A] [(0x0104, 0xCE)] { blank with d := 0x01, e := 0x04 })
      (fun t => [t.a.toNat, t.pc.toNat]) = some [0xCE, 0x01] := by decide
/-- R129, by hand. -/
theorem test_ldABc :
    after (one [0x0A] [(0xC102, 0x5A)] { blank with b := 0xC1, c := 0x02 })
      (fun t => [t.a.toNat, t.pc.toNat]) = some [0x5A, 0x01] := by decide
/-- M11. -/
theorem test_ldBcA_port :
    stop (one [0x02] [] { blank with a := 0x01, b := 0xFF, c := 0x10 }) =
      some (.undocumentedPort 0xFF10 .write 0) := by decide
/-- R125, by hand. -/
theorem test_ldBcA :
    after (one [0x02] [] { blank with a := 0x01, b := 0xC0, c := 0x10 })
      (fun t => [(t.peek 0xC010).toNat, t.pc.toNat]) = some [0x01, 0x01] := by decide
/-- R126, by hand. -/
theorem test_ldDeA :
    after (one [0x12] [] { blank with a := 0x09, d := 0xFF, e := 0x80 })
      (fun t => [(t.peek 0xFF80).toNat, t.pc.toNat]) = some [0x09, 0x01] := by decide
/-- M12. -/
theorem test_ldRD8_sentinel_is_data :
    after (one [0x06, 0xDD] [] blank)
      (fun t => [t.b.toNat, t.pc.toNat]) = some [0xDD, 0x02] := by decide
/-- I2. -/
theorem test_incR :
    after (one [0x04] [] { blank with b := 0x7F })
      (fun t => [t.b.toNat, t.flags.toByte.toNat, t.pc.toNat]) = some [0x80, 0x20, 0x01] := by decide
/-- S3. -/
theorem test_incR_wraps_keeps_carry :
    after (one [0x04] [] { blank with b := 0xFF, flags := flagsOf 0x10 })
      (fun t => [t.b.toNat, t.flags.toByte.toNat, t.pc.toNat]) = some [0x00, 0xB0, 0x01] := by decide
/-- S3. -/
theorem test_decR :
    after (one [0x05] [] { blank with b := 0x10 })
      (fun t => [t.b.toNat, t.flags.toByte.toNat, t.pc.toNat]) = some [0x0F, 0x60, 0x01] := by decide
/-- I4. -/
theorem test_decR_to_zero :
    after (one [0x05] [] { blank with b := 0x01, flags := flagsOf 0x10 })
      (fun t => [t.b.toNat, t.flags.toByte.toNat, t.pc.toNat]) = some [0x00, 0xD0, 0x01] := by decide
/-- I5. -/
theorem test_incHl :
    after (one [0x34] [(0xC001, 0xFF)] { blank with h := 0xC0, l := 0x01, flags := flagsOf 0x10 })
      (fun t => [(t.peek 0xC001).toNat, t.flags.toByte.toNat, t.pc.toNat]) = some [0x00, 0xB0, 0x01] := by decide
/-- IO10. -/
theorem test_incHl_write_fails :
    stop (one [0x34] [] { mapped with h := 0xFF, l := 0x44 }) =
      some (.unimplemented (.port 0xFF44) 0) := by decide
/-- I7. -/
theorem test_decHl :
    after (one [0x35] [(0xC001, 0x00)] { blank with h := 0xC0, l := 0x01 })
      (fun t => [(t.peek 0xC001).toNat, t.flags.toByte.toNat, t.pc.toNat]) = some [0xFF, 0x60, 0x01] := by decide
/-- I8. -/
theorem test_incRr_wraps :
    after (one [0x03] [] { blank with b := 0xFF, c := 0xFF })
      (fun t => [t.b.toNat, t.c.toNat, t.flags.toByte.toNat, t.pc.toNat]) = some [0x00, 0x00, 0x00, 0x01] := by decide
/-- I10. -/
theorem test_incRr_sp :
    after (one [0x33] [] { blank with sp := 0xFFFF })
      (fun t => [t.sp.toNat, t.pc.toNat]) = some [0x00, 0x01] := by decide
/-- I11. -/
theorem test_decRr :
    after (one [0x1B] [] { blank with d := 0x01 })
      (fun t => [t.d.toNat, t.e.toNat, t.pc.toNat]) = some [0x00, 0xFF, 0x01] := by decide
/-- I12. -/
theorem test_decRr_sp :
    after (one [0x3B] [] { blank with flags := flagsOf 0x80 })
      (fun t => [t.sp.toNat, t.flags.toByte.toNat, t.pc.toNat]) = some [0xFFFF, 0x80, 0x01] := by decide
/-- A4. -/
theorem test_addAR :
    after (one [0x80] [] { blank with a := 0xFF, b := 0x01 })
      (fun t => [t.a.toNat, t.flags.toByte.toNat, t.pc.toNat]) = some [0x00, 0xB0, 0x01] := by decide
/-- A8. -/
theorem test_addAR_memory :
    after (one [0x86] [(0xC000, 0xFF)] { blank with a := 0x01, h := 0xC0 })
      (fun t => [t.a.toNat, t.flags.toByte.toNat, t.pc.toNat]) = some [0x00, 0xB0, 0x01] := by decide
/-- A10. -/
theorem test_adcAR_carry_lost :
    after (one [0x88] [] { blank with a := 0x12, b := 0xFF, flags := flagsOf 0x10 })
      (fun t => [t.a.toNat, t.flags.toByte.toNat, t.pc.toNat]) = some [0x12, 0x00, 0x01] := by decide
/-- A12. -/
theorem test_adcAR :
    after (one [0x88] [] { blank with a := 0x0E, b := 0x01, flags := flagsOf 0x10 })
      (fun t => [t.a.toNat, t.flags.toByte.toNat, t.pc.toNat]) = some [0x10, 0x20, 0x01] := by decide
/-- A17. -/
theorem test_subR :
    after (one [0x90] [] { blank with a := 0x00, b := 0x01 })
      (fun t => [t.a.toNat, t.flags.toByte.toNat, t.pc.toNat]) = some [0xFF, 0x70, 0x01] := by decide
/-- A19. -/
theorem test_subR_borrow_only :
    after (one [0x90] [] { blank with a := 0x80, b := 0x90 })
      (fun t => [t.a.toNat, t.flags.toByte.toNat, t.pc.toNat]) = some [0xF0, 0x50, 0x01] := by decide
/-- A22. -/
theorem test_sbcAR_borrow_lost :
    after (one [0x98] [] { blank with a := 0x12, b := 0xFF, flags := flagsOf 0x10 })
      (fun t => [t.a.toNat, t.flags.toByte.toNat, t.pc.toNat]) = some [0x12, 0x40, 0x01] := by decide
/-- A24. -/
theorem test_sbcAR :
    after (one [0x98] [] { blank with a := 0x10, b := 0x01, flags := flagsOf 0x10 })
      (fun t => [t.a.toNat, t.flags.toByte.toNat, t.pc.toNat]) = some [0x0E, 0x60, 0x01] := by decide
/-- A30. -/
theorem test_andR :
    after (one [0xA0] [] { blank with a := 0xF0, b := 0x0F, flags := flagsOf 0x10 })
      (fun t => [t.a.toNat, t.flags.toByte.toNat, t.pc.toNat]) = some [0x00, 0xA0, 0x01] := by decide
/-- S4. -/
theorem test_xorR_self :
    after (one [0xAF] [] { blank with a := 0x5A, flags := flagsOf 0x70 })
      (fun t => [t.a.toNat, t.flags.toByte.toNat, t.pc.toNat]) = some [0x00, 0x80, 0x01] := by decide
/-- A36. -/
theorem test_orR :
    after (one [0xB0] [] { blank with a := 0x50, b := 0x0A, flags := flagsOf 0x10 })
      (fun t => [t.a.toNat, t.flags.toByte.toNat, t.pc.toNat]) = some [0x5A, 0x00, 0x01] := by decide
/-- A38. -/
theorem test_cpR :
    after (one [0xB8] [] { blank with a := 0x3C, b := 0x40 })
      (fun t => [t.a.toNat, t.flags.toByte.toNat, t.pc.toNat]) = some [0x3C, 0x50, 0x01] := by decide
/-- A45. -/
theorem test_cpR_port :
    stop (one [0xBE] [] { blank with a := 0x01, h := 0xFF, l := 0x44, flags := flagsOf 0x30 }) =
      some (.undocumentedPort 0xFF44 .read 0) := by decide
/-- A43. -/
theorem test_cpD8 :
    after (one [0xFE, 0x91] [] { blank with a := 0x90 })
      (fun t => [t.a.toNat, t.flags.toByte.toNat, t.pc.toNat]) = some [0x90, 0x70, 0x02] := by decide
/-- K1. -/
theorem test_pushBc :
    after (one [0xC5] [] { blank with b := 0x12, c := 0x34, sp := 0xD000 })
      (fun t => [t.sp.toNat, (t.peek 0xCFFE).toNat, (t.peek 0xCFFF).toNat, t.pc.toNat]) = some [0xCFFE, 0x34, 0x12, 0x01] := by decide
/-- K5. -/
theorem test_pushBc_past_the_end :
    stop (one [0xC5] [] { blank with b := 0x12, c := 0x34, sp := 0x0001 }) =
      some (.configurationError 0x10000 0) := by decide
/-- R177, by hand. -/
theorem test_pushDe :
    after (one [0xD5] [] { blank with d := 0x56, e := 0x78, sp := 0xD000 })
      (fun t => [t.sp.toNat, (t.peek 0xCFFE).toNat, (t.peek 0xCFFF).toNat, t.pc.toNat]) = some [0xCFFE, 0x78, 0x56, 0x01] := by decide
/-- R177, by hand. -/
theorem test_pushHl :
    after (one [0xE5] [] { blank with h := 0x9A, l := 0xBC, sp := 0x0000 })
      (fun t => [t.sp.toNat, (t.peek 0xFFFE).toNat, (t.peek 0xFFFF).toNat, t.pc.toNat]) = some [0xFFFE, 0xBC, 0x9A, 0x01] := by decide
/-- K2. -/
theorem test_pushAf :
    after (one [0xF5] [] { blank with a := 0x9A, flags := flagsOf 0xB0, sp := 0xD000 })
      (fun t => [t.sp.toNat, (t.peek 0xCFFE).toNat, (t.peek 0xCFFF).toNat, t.pc.toNat]) = some [0xCFFE, 0xB0, 0x9A, 0x01] := by decide
/-- K9. -/
theorem test_popBc :
    after (one [0xC1] [(0xFFFE, 0x34), (0xFFFF, 0x12)] { blank with sp := 0xFFFE })
      (fun t => [t.b.toNat, t.c.toNat, t.sp.toNat, t.pc.toNat]) = some [0x12, 0x34, 0x00, 0x01] := by decide
/-- K8. -/
theorem test_popBc_past_the_end :
    stop (one [0xC1] [(0xFFFF, 0x77)] { blank with sp := 0xFFFF }) =
      some (.configurationError 0x10000 0) := by decide
/-- K4. -/
theorem test_popDe :
    after (one [0xD1] [(0xCFFE, 0x34), (0xCFFF, 0x12)] { blank with sp := 0xCFFE, flags := flagsOf 0x50 })
      (fun t => [t.d.toNat, t.e.toNat, t.sp.toNat, t.flags.toByte.toNat, t.pc.toNat]) = some [0x12, 0x34, 0xD000, 0x50, 0x01] := by decide
/-- R178, by hand. -/
theorem test_popHl :
    after (one [0xE1] [(0xCFFE, 0x34), (0xCFFF, 0x12)] { blank with sp := 0xCFFE })
      (fun t => [t.h.toNat, t.l.toNat, t.sp.toNat, t.pc.toNat]) = some [0x12, 0x34, 0xD000, 0x01] := by decide
/-- K3. -/
theorem test_popAf_masks :
    after (one [0xF1] [(0xC000, 0xFF), (0xC001, 0x12)] { blank with sp := 0xC000 })
      (fun t => [t.a.toNat, t.flags.toByte.toNat, t.sp.toNat, t.pc.toNat]) = some [0x12, 0xF0, 0xC002, 0x01] := by decide
/-- K10. -/
theorem test_call :
    after (one [0xCD, 0x34, 0x12] [] { blank with sp := 0xD000, flags := flagsOf 0xF0 })
      (fun t => [t.pc.toNat, t.sp.toNat, (t.peek 0xCFFE).toNat, (t.peek 0xCFFF).toNat, t.flags.toByte.toNat]) = some [0x1234, 0xCFFE, 0x03, 0x00, 0xF0] := by decide
/-- K19. -/
theorem test_call_port :
    stop (one [0xCD, 0x34, 0x12] [] { blank with sp := 0xFF42 }) =
      some (.undocumentedPort 0xFF40 .write 0) := by decide
/-- K11. -/
theorem test_callNz_not_taken :
    after (one [0xC4, 0x34, 0x12] [] { blank with sp := 0xD000, flags := flagsOf 0x80 })
      (fun t => [t.pc.toNat, t.sp.toNat]) = some [0x03, 0xD000] := by decide
/-- K12. -/
theorem test_callNz_taken :
    after (one [0xC4, 0x34, 0x12] [] { blank with sp := 0xD000 })
      (fun t => [t.pc.toNat, t.sp.toNat, (t.peek 0xCFFE).toNat, (t.peek 0xCFFF).toNat]) = some [0x1234, 0xCFFE, 0x03, 0x00] := by decide
/-- K13. -/
theorem test_callZ :
    after (one [0xCC, 0x34, 0x12] [] { blank with sp := 0xD000, flags := flagsOf 0x80 })
      (fun t => [t.pc.toNat, t.sp.toNat, (t.peek 0xCFFE).toNat]) = some [0x1234, 0xCFFE, 0x03] := by decide
/-- K14. -/
theorem test_callNc :
    after (one [0xD4, 0x34, 0x12] [] { blank with sp := 0xD000, flags := flagsOf 0x10 })
      (fun t => [t.pc.toNat, t.sp.toNat]) = some [0x03, 0xD000] := by decide
/-- K15. -/
theorem test_callC :
    after (one [0xDC, 0x34, 0x12] [] { blank with sp := 0xD000, flags := flagsOf 0x10 })
      (fun t => [t.pc.toNat, t.sp.toNat]) = some [0x1234, 0xCFFE] := by decide
/-- K16. -/
theorem test_ret :
    after (one [0xC9] [(0xCFFE, 0x03), (0xCFFF, 0x01)] { blank with sp := 0xCFFE })
      (fun t => [t.pc.toNat, t.sp.toNat, t.ime.toNat]) = some [0x0103, 0xD000, 0x00] := by decide
/-- K17. -/
theorem test_reti :
    after (one [0xD9] [(0xCFFE, 0x03), (0xCFFF, 0x01)] { blank with sp := 0xCFFE })
      (fun t => [t.pc.toNat, t.sp.toNat, t.ime.toNat]) = some [0x0103, 0xD000, 0x01] := by decide
/-- J1. -/
theorem test_jp :
    after (one [0xC3, 0x50, 0x01] [] { blank with flags := flagsOf 0xF0 })
      (fun t => [t.pc.toNat, t.flags.toByte.toNat]) = some [0x0150, 0xF0] := by decide
/-- J5. -/
theorem test_jr_backward_wraps :
    after (one [0x18, 0xFB] [] blank)
      (fun t => [t.pc.toNat]) = some [0xFFFD] := by decide
/-- J6. -/
theorem test_jr_forward_wraps :
    after (one [0x18, 0x10, 0x00] [] { blank with pc := 0xFFFC })
      (fun t => [t.pc.toNat]) = some [0x0E] := by decide
/-- J7. -/
theorem test_jrNz :
    after (one [0x20, 0x05] [] blank)
      (fun t => [t.pc.toNat]) = some [0x07] := by decide
/-- J8. -/
theorem test_jrNz_not_taken :
    after (one [0x20, 0x05] [] { blank with flags := flagsOf 0x80 })
      (fun t => [t.pc.toNat]) = some [0x02] := by decide
/-- J9. -/
theorem test_jrZ :
    after (one [0x28, 0x05] [] { blank with flags := flagsOf 0x80 })
      (fun t => [t.pc.toNat]) = some [0x07] := by decide
/-- J10. -/
theorem test_jrZ_not_taken :
    after (one [0x28, 0x05] [] { blank with flags := flagsOf 0x70 })
      (fun t => [t.pc.toNat]) = some [0x02] := by decide
/-- J11. -/
theorem test_jrNc :
    after (one [0x30, 0xFC] [] blank)
      (fun t => [t.pc.toNat]) = some [0xFFFE] := by decide
/-- J12. -/
theorem test_jrNc_not_taken :
    after (one [0x30, 0xFC] [] { blank with flags := flagsOf 0x10 })
      (fun t => [t.pc.toNat]) = some [0x02] := by decide
/-- J13. -/
theorem test_jrC :
    after (one [0x38, 0x10] [] { blank with flags := flagsOf 0x10 })
      (fun t => [t.pc.toNat]) = some [0x12] := by decide
/-- J14. -/
theorem test_jrC_not_taken :
    after (one [0x38, 0x10] [] { blank with flags := flagsOf 0xE0 })
      (fun t => [t.pc.toNat]) = some [0x02] := by decide
/-- C1. -/
theorem test_rlcR :
    after (one [0xCB, 0x00] [] { blank with b := 0x85 })
      (fun t => [t.b.toNat, t.flags.c.toNat, t.pc.toNat]) = some [0x0B, 0x01, 0x02] := by decide
/-- C3. -/
theorem test_rlcR_memory :
    after (one [0xCB, 0x06] [(0xC000, 0x81)] { blank with h := 0xC0 })
      (fun t => [(t.peek 0xC000).toNat, t.flags.c.toNat, t.pc.toNat]) = some [0x03, 0x01, 0x02] := by decide
/-- C5. -/
theorem test_rlR :
    after (one [0xCB, 0x11] [] { blank with flags := flagsOf 0x10 })
      (fun t => [t.c.toNat, t.flags.c.toNat, t.pc.toNat]) = some [0x01, 0x00, 0x02] := by decide
/-- C4. -/
theorem test_rlR_bit_out :
    after (one [0xCB, 0x11] [] { blank with c := 0x80 })
      (fun t => [t.c.toNat, t.flags.c.toNat, t.pc.toNat]) = some [0x00, 0x01, 0x02] := by decide
/-- C7. -/
theorem test_bit7H :
    after (one [0xCB, 0x7C] [] { blank with h := 0x80, flags := flagsOf 0xD0 })
      (fun t => [t.h.toNat, t.flags.toByte.toNat, t.pc.toNat]) = some [0x80, 0x30, 0x02] := by decide
/-- C8. -/
theorem test_bit7H_clear :
    after (one [0xCB, 0x7C] [] { blank with h := 0x7F, flags := flagsOf 0x40 })
      (fun t => [t.flags.toByte.toNat, t.pc.toNat]) = some [0xA0, 0x02] := by decide
/-- C9. -/
theorem test_resBR :
    after (one [0xCB, 0x80] [] { blank with b := 0xFF, flags := flagsOf 0xF0 })
      (fun t => [t.b.toNat, t.flags.toByte.toNat, t.pc.toNat]) = some [0xFE, 0xF0, 0x02] := by decide
/-- C13. -/
theorem test_resBR_memory :
    after (one [0xCB, 0x86] [(0xC010, 0xFF)] { blank with h := 0xC0, l := 0x10 })
      (fun t => [(t.peek 0xC010).toNat, t.pc.toNat]) = some [0xFE, 0x02] := by decide
/-- C12. -/
theorem test_setBR_memory :
    after (one [0xCB, 0xFE] [(0xC010, 0x01)] { blank with h := 0xC0, l := 0x10, flags := flagsOf 0x30 })
      (fun t => [(t.peek 0xC010).toNat, t.flags.toByte.toNat, t.pc.toNat]) = some [0x81, 0x30, 0x02] := by decide
/-- C15. -/
theorem test_setBR_port :
    stop (one [0xCB, 0xC6] [] { blank with h := 0xFF, l := 0x10 }) =
      some (.undocumentedPort 0xFF10 .read 0) := by decide
/-- R229, by hand. -/
theorem test_di :
    after (one [0xF3] [] { blank with ime := true })
      (fun t => [t.ime.toNat, t.pc.toNat]) = some [0x00, 0x01] := by decide
/-- X3. -/
theorem test_ei :
    after (one [0xFB] [] blank)
      (fun t => [t.ime.toNat, t.pc.toNat]) = some [0x01, 0x01] := by decide
/-- X5. -/
theorem test_ldhA8A :
    after (one [0xE0, 0x80] [] { blank with a := 0x42 })
      (fun t => [(t.peek 0xFF80).toNat, t.pc.toNat]) = some [0x42, 0x02] := by decide
/-- IO1. -/
theorem test_ldhA8A_sound_drops :
    after (one [0xE0, 0x11] [] { mapped with a := 0x80 })
      (fun t => [(t.peek 0xFF11).toNat, t.pc.toNat]) = some [0xDD, 0x02] := by decide
/-- X6. -/
theorem test_ldhAA8 :
    after (one [0xF0, 0xFF] [(0xFFFF, 0x99)] blank)
      (fun t => [t.a.toNat, t.pc.toNat]) = some [0x99, 0x02] := by decide
/-- IO4. -/
theorem test_ldhAA8_scanline :
    after (one [0xF0, 0x44] [] mapped)
      (fun t => [t.a.toNat, (t.peek 0xFF44).toNat, t.pc.toNat]) = some [0x90, 0xDD, 0x02] := by decide
/-- X9. -/
theorem test_ldA16A :
    after (one [0xEA, 0x00, 0xC0] [] { blank with a := 0x42 })
      (fun t => [(t.peek 0xC000).toNat, t.pc.toNat]) = some [0x42, 0x03] := by decide
/-- X10. -/
theorem test_ldAA16_own_byte :
    after (one [0xFA, 0x01, 0x00] [] blank)
      (fun t => [t.a.toNat, t.pc.toNat]) = some [0x01, 0x03] := by decide

/-! ## The rows that are not built (U1 to U12, C17 to C19) -/

/-- U1 to U10 on one byte of each rule, and U11, U12 on the sentinel. -/
theorem test_unbuilt_bytes :
    [0x76, 0x10, 0x08, 0x27, 0x29, 0xC0, 0xCA, 0xE9, 0xFF, 0xC6, 0xE8, 0xFD].map (fun b => stop (one [b, 0, 0] [] blank)) =
      [0x76, 0x10, 0x08, 0x27, 0x29, 0xC0, 0xCA, 0xE9, 0xFF, 0xC6, 0xE8, 0xFD].map
        (fun b => some (.unimplemented (.opcode b) 0)) := by decide
theorem test_sentinel_fetched :
    stop (one [0xDD, 0, 0] [] blank) = some (.invalidOpcode 0) ∧
    stop (one [0xDD, 0, 0] [] { blank with par := { blank.par with sentinel := 0xD3 } }) =
      some (.unimplemented (.opcode 0xDD) 0) := by decide
theorem test_unbuilt_prefixed :
    [0x08, 0x19, 0x20, 0x28, 0x37, 0x3F, 0x40, 0x7E, 0x7F].map (fun b => stop (one [0xCB, b, 0] [] blank)) =
      [0x08, 0x19, 0x20, 0x28, 0x37, 0x3F, 0x40, 0x7E, 0x7F].map (fun b => some (.unimplemented (.sub b) 0)) := by decide

/-! ## The loop, the fetch, injection (L5 to L13, J16) -/

theorem test_fetch_errors :
    stop (one [0, 0] [] { blank with pc := 0xFFFE }) = some (.configurationError 0x10000 0xFFFE) ∧
    stop (one [0, 0] [] { blank with pc := 0xFEFE }) = some (.undocumentedPort 0xFF00 .read 0xFEFE) ∧
    stop (one [0] [] { blank with pc := 0xFF7E }) = some (.undocumentedPort 0xFF7E .read 0xFF7E) := by decide
theorem test_fetch_edges :
    after (one [0, 0, 0] [] { blank with pc := 0xFEFD }) (fun t => [t.pc.toNat]) = some [0xFEFE] ∧
    after (one [0, 0, 0] [] { blank with pc := 0xFF80 }) (fun t => [t.pc.toNat]) = some [0xFF81] ∧
    after (one [0xCB, 0xC7, 0] [] { blank with pc := 0xFFFD }) (fun t => [t.a.toNat, t.pc.toNat]) = some [1, 0xFFFF] := by
  decide
theorem test_pc_unchanged_is_fatal_at_the_second_step :
    ((load [0x18, 0xFE] [] blank).runCall 1).2 = .success ∧
    ((load [0x18, 0xFE] [] blank).runCall 2).2 = .fatal (.invariantViolation 0) := by decide
theorem test_injection_overlays :
    after (blank.inject (some [0x3E, 0x01]) (some [0x00, 0x00, 0x3C, 0x3C, 0x76]))
      (fun t => [0, 1, 2, 3, 4, 5].map (fun a => (t.peek a).toNat)) =
      some [0x3E, 0x01, 0x3C, 0x3C, 0x76, 0xDD] := by decide
theorem test_failed_push_leaves_the_low_byte :
    let s := load [0xC5] [] { blank with b := 0x12, c := 0x34, sp := 0x0001 }
    ((s.runCall 1).1.sp, (s.runCall 1).1.peek 0xFFFF, (s.runCall 1).1.pc, (s.runCall 1).1.run) =
      (0xFFFF, 0x34, 0, .stopped) := by decide

/-! ## Witnesses: for every statement with hypotheses, a state and operands that meet them all -/

/-- Registers that point at storage, with room on the stack. -/
def rich : State :=
  { mapped with a := 0x12, b := 0xC0, c := 0x01, d := 0xC1, e := 0x02, h := 0xC2, l := 0x03, sp := 0xD000, pc := 0x0100 }

theorem witness_DecodeOfEncodeUnderAnyTrailingBytes :
    ((Instr.ldRrD16 .sp 0xFFFF).wf = true ∧ 3 ≤ (encode (.ldRrD16 .sp 0xFFFF) ++ []).length) ∧
    ((Instr.bitBR 6 (.reg .h)).wf = true ∧ 3 ≤ (encode (.bitBR 6 (.reg .h)) ++ [0xCB]).length) ∧
    (Instr.nop.wf = true ∧ 3 ≤ (encode .nop ++ [0xDD, 0xDD]).length) := by decide

theorem witness_UnassignedBytesAreExactlyTheUnimplementedOpcodes : (0x76 : Byte) ≠ 0xCB ∧ (0xFF : Byte) ≠ 0xCB := by decide

/-- Each class of address of the accesses, at the edges of its range. -/
theorem witness_MemReadByAddressAndClass :
    (0xFFFF < 0x10000) ∧ (0xFEFF ≤ 0xFFFF ∧ 0xFEFF < 0xFF00) ∧ (0xFFFF ≤ 0xFFFF ∧ 0xFF7F < 0xFF80) ∧
    (0xFF00 ≤ 0xFF00 ∧ 0xFF00 ≤ 0xFF7F) ∧ (0xFF00 ≤ 0xFF7F ∧ 0xFF7F ≤ 0xFF7F) ∧
    [0xFF00, 0xFF11, 0xFF42, 0xFF44, 0xFF46, 0xFF50, 0xFF7F].map (portClass rich.par) =
      [.undocumented, .sound, .stored, .scanLine, .special 1, .notBuilt, .undocumented] := by decide

theorem witness_MemWriteChangesAtMostMem :
    (rich.Writable 0xFEFF ∧ rich.Writable 0xFF80 ∧ rich.Writable 0xFFFF ∧ rich.Writable 0xFF11 ∧ rich.Writable 0xFF42 ∧
      rich.Writable 0xFF46) ∧
    0xFFFF < 0x10000 ∧
    (inWindow 0xFF7F ∧ portClass rich.par 0xFF7F = .undocumented) ∧
    (inWindow 0xFF50 ∧ portClass rich.par 0xFF50 = .notBuilt) ∧
    (inWindow 0xFF44 ∧ portClass rich.par 0xFF44 = .scanLine) :=
  ⟨⟨by decide, by decide, by decide, by decide, by decide, by decide⟩, by decide, by decide, by decide, by decide⟩

theorem witness_AccessesFailOnlyInTheWindow :
    (0xFEFF ≤ 0xFFFF ∧ 0xFEFF ≤ 0xFEFF) ∧ (0xFFFF ≤ 0xFFFF ∧ 0xFF80 ≤ 0xFFFF) ∧
    (0xFF00 ≤ 0xFF00 ∧ 0xFF00 ≤ 0xFF7F) ∧ (0xFF00 ≤ 0xFF7F ∧ 0xFF7F ≤ 0xFF7F) := by decide

theorem witness_StoresAreSeenAndIndependent :
    Memory.wf rich.par.sentinel rich.mem ∧ 0 < 0x10000 ∧ 0xFFFF < 0x10000 ∧ (0xFFFF : Nat) ≠ 0 := by decide

theorem witness_CanonicalMemoriesWithEqualBytesAreEqual :
    Memory.wf 0xDD [(0, 1), (0xFFFF, 2)] ∧ Memory.wf 0xDD [(0, 1), (0xFFFF, 2)] ∧
    ∀ addr, Memory.read 0xDD [(0, 1), (0xFFFF, 2)] addr = Memory.read 0xDD [(0, 1), (0xFFFF, 2)] addr :=
  ⟨by decide, by decide, fun _ => rfl⟩

theorem witness_OperandAccessorIsRegisterOrByteAtHl : Reg8.l ≠ Reg8.h := by decide

theorem witness_RegisterMoveCopies : Reg8.c ≠ Reg8.b := by decide

/-- (HL) readable at storage and at a `Sound` port; the error at an `Undocumented` one. -/
theorem witness_LoadFromHlIndirect :
    rich.Readable rich.hl.toNat ∧ { rich with h := 0xFF, l := 0x11 }.Readable 0xFF11 ∧
    { rich with h := 0xFF, l := 0x00 }.memRead { rich with h := 0xFF, l := 0x00 }.hl.toNat =
      .error (.undocumentedPort 0xFF00 .read 0x0100) := ⟨by decide, by decide, rfl⟩

theorem witness_StoreToHlIndirect :
    rich.Writable rich.hl.toNat ∧
    { rich with h := 0xFF, l := 0x44 }.memWrite { rich with h := 0xFF, l := 0x44 }.hl.toNat 0x12 =
      .error (.unimplemented (.port 0xFF44) 0x0100) := ⟨by decide, rfl⟩

theorem witness_ImmediateLoadsWriteTheirRegister : Reg8.a ≠ Reg8.b := by decide

/-- Each of the four addresses readable, the high page at both its ends, and an address whose read fails. -/
theorem witness_AccumulatorLoadsReadTheirAddress :
    rich.Readable (rich.b.toNat * 256 + rich.c.toNat) ∧ rich.Readable (rich.d.toNat * 256 + rich.e.toNat) ∧
    rich.Readable (0xFF00 + (0x80 : Byte).toNat) ∧ rich.Readable (0xFF00 + (0xFF : Byte).toNat) ∧
    rich.Readable (0xFFFF : Word).toNat ∧
    rich.memRead (0xFF00 + (0x00 : Byte).toNat) = .error (.undocumentedPort 0xFF00 .read 0x0100) :=
  ⟨by decide, by decide, by decide, by decide, by decide, rfl⟩

theorem witness_StoresWriteOneByteAtTheirAddress :
    rich.Writable (rich.b.toNat * 256 + rich.c.toNat) ∧ rich.Writable (rich.d.toNat * 256 + rich.e.toNat) ∧
    rich.Writable (rich.h.toNat * 256 + rich.l.toNat) ∧ rich.Writable (0xFF00 + (0x80 : Byte).toNat) ∧
    rich.Writable (0xFF00 + (0xFF : Byte).toNat) ∧ rich.Writable (0x0000 : Word).toNat ∧
    rich.memWrite (0xFF00 + (0x50 : Byte).toNat) 0x12 = .error (.unimplemented (.port 0xFF50) 0x0100) :=
  ⟨by decide, by decide, by decide, by decide, by decide, by decide, rfl⟩

/-- HL at both ends of the address space, and at a port that fails. -/
theorem witness_IndexedFormsMoveHlAfterTheTransfer :
    (((0x0000 : Word).toNat = ({ rich with h := 0xFF, l := 0xFF }.hl.toNat + 1) % 65536) ∧
      { rich with h := 0xFF, l := 0xFF }.Writable 0xFFFF ∧ { rich with h := 0xFF, l := 0xFF }.Readable 0xFFFF) ∧
    (((0xFFFF : Word).toNat = ({ rich with h := 0x00, l := 0x00 }.hl.toNat + 65535) % 65536) ∧
      { rich with h := 0x00, l := 0x00 }.Writable 0 ∧ { rich with h := 0x00, l := 0x00 }.Readable 0) ∧
    { rich with h := 0xFF, l := 0x44 }.memWrite 0xFF44 0x12 = .error (.unimplemented (.port 0xFF44) 0x0100) ∧
    { rich with h := 0xFF, l := 0x50 }.memRead 0xFF50 = .error (.unimplemented (.port 0xFF50) 0x0100) :=
  ⟨by decide, by decide, rfl, rfl⟩

theorem witness_PairIncrementAndDecrementWrap : Pair.sp ≠ Pair.bc := by decide

theorem witness_RegisterIncrementAndDecrement : Reg8.a ≠ Reg8.b := by decide

/-- The three clauses: a read that fails, a write that fails after the read, and both completing. -/
theorem witness_MemoryIncrementAndDecrement :
    { rich with h := 0xFF, l := 0x50 }.memRead 0xFF50 = .error (.unimplemented (.port 0xFF50) 0x0100) ∧
    ({ rich with h := 0xFF, l := 0x44 }.memRead 0xFF44 = .ok 0x90 ∧
      { rich with h := 0xFF, l := 0x44 }.memWrite 0xFF44 (0x90 + 1) = .error (.unimplemented (.port 0xFF44) 0x0100) ∧
      { rich with h := 0xFF, l := 0x44 }.memWrite 0xFF44 (0x90 - 1) = .error (.unimplemented (.port 0xFF44) 0x0100)) ∧
    rich.Writable rich.hl.toNat := ⟨rfl, ⟨rfl, rfl, rfl⟩, by decide⟩

/-- A readable operand of each form and one whose read fails; the same for the six other ALU statements. -/
theorem witness_AddAndAdcResultAndFlags :
    rich.readOperand (.reg .b) = .ok 0xC0 ∧ rich.readOperand .hlInd = .ok 0xDD ∧
    { rich with h := 0xFF, l := 0x50 }.readOperand .hlInd = .error (.unimplemented (.port 0xFF50) 0x0100) :=
  ⟨rfl, rfl, rfl⟩

theorem witness_SubAndSbcResultAndFlags :
    rich.readOperand (.reg .a) = .ok 0x12 ∧ rich.readOperand .hlInd = .ok 0xDD ∧
    { rich with h := 0xFF, l := 0x7F }.readOperand .hlInd = .error (.undocumentedPort 0xFF7F .read 0x0100) :=
  ⟨rfl, rfl, rfl⟩

theorem witness_LogicRowResultAndFlags :
    rich.readOperand (.reg .l) = .ok 0x03 ∧ rich.readOperand .hlInd = .ok 0xDD ∧
    { rich with h := 0xFF, l := 0x00 }.readOperand .hlInd = .error (.undocumentedPort 0xFF00 .read 0x0100) :=
  ⟨rfl, rfl, rfl⟩

theorem witness_CompareSetsFlagsOnly :
    rich.readOperand (.reg .c) = .ok 0x01 ∧ rich.readOperand .hlInd = .ok 0xDD ∧
    { rich with h := 0xFF, l := 0x00 }.readOperand .hlInd = .error (.undocumentedPort 0xFF00 .read 0x0100) :=
  ⟨rfl, rfl, rfl⟩

/-- The corner operand 0xFF with Carry set, for each of the four instructions. -/
theorem witness_CarryRuleDivergesExactlyAtFF :
    let s := { rich with b := 0xFF, flags := flagsOf 0x10 }
    s.readOperand (.reg .b) = .ok 0xFF ∧ (∃ t, exec (.addAR (.reg .b)) s = .next t) ∧
    (∃ t, exec (.subR (.reg .b)) s = .next t) ∧ (∃ t, exec (.adcAR (.reg .b)) s = .next t) ∧
    ∃ t, exec (.sbcAR (.reg .b)) s = .next t := ⟨rfl, ⟨_, rfl⟩, ⟨_, rfl⟩, ⟨_, rfl⟩, ⟨_, rfl⟩⟩

/-- A push at an ordinary SP and at both ends of storage, and one whose second byte lies on a `Stored` port. -/
theorem witness_PushStoresLittleEndianBelowSp :
    rich.Pushable ∧ { rich with sp := 0x0000 }.Pushable ∧ { rich with sp := 0x0002 }.Pushable ∧
    rich.TakesByte (rich.sp - 2).toNat ∧ rich.TakesByte ((rich.sp - 2).toNat + 1) ∧ rich.TakesByte 0xFF42 ∧
    rich.PlainTarget (rich.sp - 2).toNat ∧ rich.PlainTarget ((rich.sp - 2).toNat + 1) :=
  ⟨by decide, by decide, by decide, by decide, by decide, by decide, fun h => absurd h (by decide),
    fun h => absurd h (by decide)⟩

/-- The two clauses on errors, for the pushes and the taken calls: the low byte fails (SP = 0xFF42), or the high byte fails
after the low byte is stored below the window (SP = 0xFF01). -/
theorem witness_PushStoresLittleEndianBelowSp_errors :
    { rich with sp := 0xFF42 - 2 }.memWrite ((0xFF42 : Word) - 2).toNat 0x01 =
      .error (.undocumentedPort 0xFF40 .write 0x0100) ∧
    ∃ u, { rich with sp := 0xFF01 - 2 }.memWrite ((0xFF01 : Word) - 2).toNat 0x01 = .ok u ∧
      u.memWrite (((0xFF01 : Word) - 2).toNat + 1) 0xC0 = .error (.undocumentedPort 0xFF00 .write 0x0100) :=
  ⟨rfl, _, rfl, rfl⟩

theorem witness_PopLoadsLittleEndianAtSp :
    rich.Poppable ∧ { rich with sp := 0xFFFE }.Poppable ∧ { rich with sp := 0x0000 }.Poppable ∧
    { rich with sp := 0xFEFE }.Poppable := ⟨by decide, by decide, by decide, by decide⟩

/-- The two clauses on errors, for the pops and the returns: the low byte fails (SP = 0xFF7F), or the high byte fails after it
(SP = 0xFEFF). -/
theorem witness_PopLoadsLittleEndianAtSp_errors :
    { rich with sp := 0xFF7F }.memRead (0xFF7F : Word).toNat = .error (.undocumentedPort 0xFF7F .read 0x0100) ∧
    { rich with sp := 0xFEFF }.memRead (0xFEFF : Word).toNat = .ok 0xDD ∧
    { rich with sp := 0xFEFF }.memRead ((0xFEFF : Word).toNat + 1) = .error (.undocumentedPort 0xFF00 .read 0x0100) :=
  ⟨rfl, rfl, rfl⟩

/-- Both SPs, and at the first both values of each flag a condition reads. -/
theorem witness_StackAccessesPastTheEndAreConfigurationErrors :
    ({ rich with sp := 0x0001 }.sp = 0x0001 ∧ { rich with sp := 0x0001 }.flags.z = false ∧
      { rich with sp := 0x0001 }.flags.c = false) ∧
    ({ rich with sp := 0x0001, flags := flagsOf 0x90 }.sp = 0x0001 ∧
      { rich with sp := 0x0001, flags := flagsOf 0x90 }.flags.z = true ∧
      { rich with sp := 0x0001, flags := flagsOf 0x90 }.flags.c = true) ∧
    { rich with sp := 0xFFFF }.sp = 0xFFFF := ⟨⟨rfl, rfl, rfl⟩, ⟨rfl, rfl, rfl⟩, rfl⟩

/-- Taken and not taken, for both flags. -/
theorem witness_CallsPushTheReturnAddress :
    rich.Pushable ∧ (true = !rich.flags.z) ∧ (false = rich.flags.z) ∧ (true = !rich.flags.c) ∧
    (true = { rich with flags := flagsOf 0x90 }.flags.z) ∧ (true = { rich with flags := flagsOf 0x90 }.flags.c) ∧
    rich.TakesByte (rich.sp - 2).toNat ∧ rich.TakesByte ((rich.sp - 2).toNat + 1) ∧
    rich.PlainTarget (rich.sp - 2).toNat ∧ rich.PlainTarget ((rich.sp - 2).toNat + 1) :=
  ⟨by decide, rfl, rfl, rfl, rfl, rfl, by decide, by decide, fun h => absurd h (by decide),
    fun h => absurd h (by decide)⟩

theorem witness_ReturnsPopIntoPc : rich.Poppable ∧ { rich with sp := 0xFFFE }.Poppable := by decide

theorem witness_CallThenReturnComesBack :
    (rich.sp.toNat ≠ 1 ∧ ¬ inWindow (rich.sp - 2).toNat ∧ ¬ inWindow ((rich.sp - 2).toNat + 1)) ∧
    ((0x0000 : Word).toNat ≠ 1 ∧ ¬ inWindow ((0x0000 : Word) - 2).toNat ∧ ¬ inWindow (((0x0000 : Word) - 2).toNat + 1)) := by
  decide

theorem witness_JumpsMovePcOnly :
    (true = !rich.flags.z) ∧ (false = rich.flags.z) ∧ (true = !rich.flags.c) ∧ (false = rich.flags.c) ∧
    (true = { rich with flags := flagsOf 0x90 }.flags.z) ∧ (true = { rich with flags := flagsOf 0x90 }.flags.c) :=
  ⟨rfl, rfl, rfl, rfl, rfl, rfl⟩

theorem witness_MemoryRotatesMoveBitSevenToCarry :
    { rich with h := 0xFF, l := 0x50 }.memRead 0xFF50 = .error (.unimplemented (.port 0xFF50) 0x0100) ∧
    ({ rich with h := 0xFF, l := 0x44 }.memRead 0xFF44 = .ok 0x90 ∧
      (0x21 : Byte).toNat = (2 * (0x90 : Byte).toNat + (0x90 : Byte).toNat / 128) % 256 ∧
      { rich with h := 0xFF, l := 0x44 }.memWrite 0xFF44 0x21 = .error (.unimplemented (.port 0xFF44) 0x0100) ∧
      (0x20 : Byte).toNat = (2 * (0x90 : Byte).toNat + rich.flags.c.toNat) % 256 ∧
      { rich with h := 0xFF, l := 0x44 }.memWrite 0xFF44 0x20 = .error (.unimplemented (.port 0xFF44) 0x0100)) ∧
    rich.Writable rich.hl.toNat := ⟨rfl, ⟨rfl, rfl, rfl, rfl, rfl⟩, by decide⟩

theorem witness_RegisterRotatesMoveBitSevenToCarry : Reg8.a ≠ Reg8.b := by decide

theorem witness_BitResetAndSetOneBit :
    { rich with h := 0xFF, l := 0x50 }.readOperand .hlInd = .error (.unimplemented (.port 0xFF50) 0x0100) ∧
    ({ rich with h := 0xFF, l := 0x44 }.readOperand .hlInd = .ok 0x90 ∧
      { rich with h := 0xFF, l := 0x44 }.writeOperand .hlInd (0x90 &&& ~~~ ((1 : Byte) <<< (7 : BitVec 3).toNat)) =
        .error (.unimplemented (.port 0xFF44) 0x0100)) ∧
    rich.OperandModifiable .hlInd ∧ rich.OperandModifiable (.reg .a) := ⟨rfl, ⟨rfl, rfl⟩, by decide, trivial⟩

/-- A window that can be fetched, with an implemented and with an unbuilt opcode. -/
theorem witness_StepRunsTheDecodedInstruction :
    (load [0x78, 0x00, 0x00] [] rich).Fetches 0x78 0x00 0x00 ∧ decode [0x78, 0x00, 0x00] = .ok (.ldRR .a .b) ∧
    (load [0x76, 0x00, 0x00] [] rich).Fetches 0x76 0x00 0x00 ∧ decode [0x76, 0x00, 0x00] = .ok .halt :=
  ⟨⟨rfl, by decide, by decide, rfl, rfl, rfl, by decide⟩, rfl, ⟨rfl, by decide, by decide, rfl, rfl, rfl, by decide⟩, rfl⟩

/-- At the last fetch address below the window, at the first above it and at the last of all. -/
theorem witness_PlacedInstructionRuns :
    [0x0100, 0xFEFD, 0xFF80, 0xFFFD].Forall (fun pc =>
      let s := load [0xCB, 0xC6, 0x00] [] { rich with pc := pc }
      sentinelLegal s.par.sentinel ∧ s.fault = none ∧ s.prevPc ≠ some s.pc ∧
      (s.pc.toNat ≤ 0xFEFD ∨ 0xFF80 ≤ s.pc.toNat ∧ s.pc.toNat ≤ 0xFFFD) ∧ s.peek s.pc.toNat = 0xCB ∧
      s.peek (s.pc.toNat + 1) = 0xC6 ∧ s.peek (s.pc.toNat + 2) = 0x00 ∧ (Instr.setBR 0 .hlInd).wf = true ∧
      encode (.setBR 0 .hlInd) ++ [0x00] = [0xCB, 0xC6, 0x00] ∧ (0xCB : Byte) ∉ unassigned) := by decide

/-- Each clause: PC unmoved; PC past 0xFFFD; each of the three reads failing; the sentinel. -/
theorem witness_StepErrorsInPriorityOrder :
    (rich.fault = none ∧ { rich with prevPc := some 0x0100 }.prevPc = some { rich with prevPc := some 0x0100 }.pc) ∧
    (rich.prevPc ≠ some rich.pc ∧ 0xFFFD < { rich with pc := 0xFFFE }.pc.toNat) ∧
    { rich with pc := 0xFF7F }.memRead 0xFF7F = .error (.undocumentedPort 0xFF7F .read 0xFF7F) ∧
    ({ rich with pc := 0xFEFF }.memRead 0xFEFF = .ok 0xDD ∧
      { rich with pc := 0xFEFF }.memRead 0xFF00 = .error (.undocumentedPort 0xFF00 .read 0xFEFF)) ∧
    ({ rich with pc := 0xFEFE }.memRead 0xFEFE = .ok 0xDD ∧ { rich with pc := 0xFEFE }.memRead 0xFEFF = .ok 0xDD ∧
      { rich with pc := 0xFEFE }.memRead 0xFF00 = .error (.undocumentedPort 0xFF00 .read 0xFEFE)) ∧
    (rich.memRead 0x0100 = .ok 0xDD ∧ rich.memRead 0x0101 = .ok 0xDD ∧ rich.memRead 0x0102 = .ok 0xDD ∧
      (0xDD : Byte) = rich.par.sentinel) :=
  ⟨⟨rfl, rfl⟩, ⟨by decide, by decide⟩, rfl, ⟨rfl, rfl⟩, ⟨rfl, rfl, rfl⟩, ⟨rfl, rfl, rfl, rfl⟩⟩

theorem witness_UnmovedPcIsFatalAtTheNextStep :
    ∃ t, step (load [0x18, 0xFE, 0x00] [] rich) = .next t ∧ t.pc = (load [0x18, 0xFE, 0x00] [] rich).pc :=
  ⟨_, rfl, by decide⟩

/-- One of each of the three kinds. -/
theorem witness_OnlyTransfersCanLeavePcUnchanged :
    (∃ t, exec (.jr 0xFE) rich = .next t ∧ t.pc = rich.pc) ∧ (∃ t, exec (.call 0x0100) rich = .next t ∧ t.pc = rich.pc) ∧
    ∃ t, exec .ret (load [] [(0xD000, 0x00), (0xD001, 0x01)] rich) = .next t ∧ t.pc = rich.pc :=
  ⟨⟨_, rfl, by decide⟩, ⟨_, rfl, by decide⟩, ⟨_, rfl, by decide⟩⟩

theorem witness_EveryStepKeepsTheInvariant :
    (load [0x70, 0x00, 0x00] [] rich).Inv ∧ ∃ t, step (load [0x70, 0x00, 0x00] [] rich) = .next t := ⟨by decide, _, rfl⟩

theorem witness_InvariantHoldsAtReset : sentinelLegal 0xDD ∧ sentinelLegal 0xFF ∧ ¬ sentinelLegal 0x76 := by decide

theorem witness_ImeIsWrittenByThreeAndReadByNone :
    (∃ t, exec .reti rich = .next t) ∧ ((∃ t, exec .nop rich = .next t) ∧ Instr.nop.writesIme = false) ∧
    ∃ e, exec .halt rich = .fault e := ⟨⟨_, rfl⟩, ⟨⟨_, rfl⟩, rfl⟩, ⟨_, rfl⟩⟩

theorem witness_OnlyListedInstructionsWriteFlagsSpMemory :
    ∃ t, exec (.ldRR .a .b) rich = .next t ∧ (Instr.ldRR .a .b).writesFlags = false ∧
      (Instr.ldRR .a .b).writesCarry = false ∧ (Instr.ldRR .a .b).writesSp = false ∧
      (Instr.ldRR .a .b).storesMemory = false := ⟨_, rfl, rfl, rfl, rfl, rfl⟩

theorem witness_SequentialInstructionsAdvanceBySize :
    ∃ t, exec (.ldRrD16 .bc 0) { rich with pc := 0xFFFD } = .next t ∧ (Instr.ldRrD16 .bc 0).transfersControl = false :=
  ⟨_, rfl, rfl⟩

/-- The three clauses, the accepted one at the largest image. -/
theorem witness_InjectionOverlaysBootOnCartridge :
    (rich.run = .stopped ∧ 65536 < max (List.replicate 65537 (0 : Byte)).length ([] : List Byte).length) ∧
    { rich with run := .running }.run = .running ∧
    (rich.run = .stopped ∧ max (List.replicate 65536 (0 : Byte)).length ([] : List Byte).length ≤ 65536) := by
  rw [List.length_replicate, List.length_replicate]
  exact ⟨⟨rfl, by decide⟩, rfl, rfl, by decide⟩

theorem witness_RunZeroChangesNothing : rich.run = .stopped ∧ rich.fault = none := ⟨rfl, rfl⟩

theorem witness_RunsCompose : ∃ t, (load [0x00, 0x00, 0x00] [] rich).runCall 1 = (t, .success) := ⟨_, rfl⟩

theorem witness_FatalErrorsAreSticky :
    (∃ t, (load [0x76] [] rich).runCall 3 = (t, .fatal (.unimplemented (.opcode 0x76) 0x0100))) ∧ rich.fault = none ∧
    (rich.latch (.invalidOpcode 0)).fault = some (.invalidOpcode 0) := ⟨⟨_, rfl⟩, rfl, rfl⟩

/-- At the highest PC of the premise too. -/
theorem witness_SelfModifyingStoreIsFetched :
    [0x0100, 0xFEF0].Forall (fun pc =>
      let s := load [0xEA, loByte (pc + 3), hiByte (pc + 3)] [] { rich with a := 0x3C, pc := pc }
      sentinelLegal s.par.sentinel ∧ s.fault = none ∧ s.prevPc ≠ some s.pc ∧ s.pc.toNat ≤ 0xFEF0 ∧
      s.peek s.pc.toNat = 0xEA ∧ s.peek (s.pc.toNat + 1) = (s.pc + 3).extractLsb' 0 8 ∧
      s.peek (s.pc.toNat + 2) = (s.pc + 3).extractLsb' 8 8 ∧ encode (.incR .a) = [s.a] ∧ (Instr.incR .a).wf = true ∧
      s.a ∉ unassigned) := by decide

theorem witness_SafeRunsSplit : (load [0x00, 0x00, 0x00] [] rich).SafeFor (1 + 0) := rfl

end Sys2Proof.Tests
end

/-! PROOFS. The pair views and the byte view of F (spec/10_state.md R23, R24, R28). -/

namespace Sys2Proof.Machine

/-! ## A pair view after a write through it, or to one of its halves -/

@[simp] theorem State.bc_setBc (s : State) (w : Word) : (s.setBc w).bc = w := cat_hi_lo w
@[simp] theorem State.de_setDe (s : State) (w : Word) : (s.setDe w).de = w := cat_hi_lo w
@[simp] theorem State.hl_setHl (s : State) (w : Word) : (s.setHl w).hl = w := cat_hi_lo w

theorem State.hl_setReg_l (s : State) (v : Byte) : (s.setReg .l v).hl = cat s.h v := rfl

/-! ## The byte view of F -/

theorem Flags.toByte_toNat (f : Flags) :
    f.toByte.toNat = (if f.z then 128 else 0) + (if f.n then 64 else 0) + (if f.h then 32 else 0) +
      (if f.c then 16 else 0) := by
  cases f with
  | mk z n h c => cases z <;> cases n <;> cases h <;> cases c <;> rfl

@[simp] theorem bitByte_getElem (b : Bool) (i : Nat) (hi : i < 8) : (bitByte b)[i] = (decide (i = 0) && b) := by
  cases b <;> simp [bitByte]

/-- Bits 7 to 4 are Z, N, Hf and Cy; the others are no storage. -/
theorem Flags.toByte_getLsbD (f : Flags) (i : Nat) (hi : i < 8) :
    f.toByte.getLsbD i =
      ((decide (i = 7) && f.z) || (decide (i = 6) && f.n) || (decide (i = 5) && f.h) || (decide (i = 4) && f.c)) := by
  interval_cases i <;> simp [Flags.toByte]

/-- A byte written to F reads back with its low nibble cleared. -/
@[simp] theorem Flags.toByte_ofByte (v : Byte) : (Flags.ofByte v).toByte = v &&& 0xF0 := by
  apply BitVec.eq_of_getLsbD_eq
  intro i hi
  rw [Flags.toByte_getLsbD _ _ hi, BitVec.getLsbD_and]
  interval_cases i <;> simp [Flags.ofByte]

/-- R28's invariant: F reads back as itself after a write of its own byte, which clears the low nibble. -/
theorem Flags.toByte_lowNibble (f : Flags) : f.toByte &&& 0x0F = 0 := by
  have hmask : f.toByte = f.toByte &&& 0xF0 := by rw [← Flags.toByte_ofByte, Flags.ofByte_toByte]
  rw [hmask, BitVec.and_assoc]
  exact BitVec.and_zero

/-! ## The obligations -/

/-- Settles O13: a pair view is the concatenation of its registers, and a word is that of its two bytes. -/
theorem pairViewsAreTheirTwoRegisters : Obligations.PairViewsAreTheirTwoRegisters := by
  intro s w v
  have hhalf : ((s.setHl w).setReg .l v).hl = cat (hiByte w) v := State.hl_setReg_l _ v
  exact ⟨cat_toNat s.b s.c, cat_toNat s.d s.e, cat_toNat s.h s.l, rfl, s.bc_setBc w, rfl, s.de_setDe w, rfl,
    s.hl_setHl w, hhalf⟩

/-- Settles O14, by the value and the bits of F's byte view and the read-back of a byte written to it. -/
theorem flagByteHasFourBits : Obligations.FlagByteHasFourBits := by
  intro s w
  have hflags : (s.setAf w).flags.toByte = loByte w &&& 0xF0 := Flags.toByte_ofByte (loByte w)
  exact ⟨s.flags.toByte_toNat, s.flags.toByte_lowNibble, rfl, rfl, hflags, rfl⟩

end Sys2Proof.Machine

/-! PROOFS. Reads of MEM by address and port class (spec/20_memory.md R51, R52). -/

namespace Sys2Proof.Machine

/-- The addresses outside the window, by its bounds (R51). -/
theorem not_inWindow_iff {addr : Nat} : ¬ inWindow addr ↔ addr < 0xFF00 ∨ 0xFF7F < addr := by
  rw [not_and_or, Nat.not_le, Nat.not_le, Config.ioBase, Config.ioLast]

/-- Settles O8, by what a read answers past MEM, outside the window and, by port class, inside it. -/
theorem memReadByAddressAndClass : Obligations.MemReadByAddressAndClass := by
  intro s addr
  refine ⟨fun hpast => ?_, fun hle hout => ?_, fun hlo hhi => ?_⟩
  · exact s.memRead_past addr hpast
  · exact s.memRead_plain addr (Nat.lt_succ_of_le hle) (not_inWindow_iff.mpr hout)
  · exact s.memRead_port addr ⟨hlo, hhi⟩

end Sys2Proof.Machine

/-! PROOFS. The 8-bit moves and the transfers between a register and (HL) (spec/40_moves_and_loads.md R121 to R123). -/

namespace Sys2Proof.Machine

/-! ## The fields of an opcode put together from them (R81), and the block of moves (R93) -/

@[simp] theorem quadrantOf_append (q : BitVec 2) (dst src : BitVec 3) : quadrantOf (q ++ dst ++ src) = q :=
  (BitVec.extractLsb'_append_eq_of_le (by decide : 3 ≤ 6)).trans BitVec.extractLsb'_append_eq_left

@[simp] theorem midOf_append (q : BitVec 2) (dst src : BitVec 3) : midOf (q ++ dst ++ src) = dst :=
  (BitVec.extractLsb'_append_eq_of_le (by decide : 3 ≤ 3)).trans BitVec.extractLsb'_append_eq_right

@[simp] theorem lowOf_append (q : BitVec 2) (dst src : BitVec 3) : lowOf (q ++ dst ++ src) = src :=
  BitVec.extractLsb'_append_eq_right

/-- In Quadrant 2 the middle field names the destination and the low field the source. -/
theorem classify_move (dst src : Operand8) (b1 b2 : Byte) :
    classify (0b01#2 ++ dst.code ++ src.code) b1 b2 = classifyMove dst src := by
  unfold classify
  rw [quadrantOf_append, midOf_append, lowOf_append, operandAt_code, operandAt_code]
  rfl

/-! ## A register written, PC advanced -/

@[simp] theorem State.reg_advance (s : State) (n : Word) (r : Reg8) : (s.advance n).reg r = s.reg r := by
  cases r <;> rfl

/-- What an instruction that writes one 8-bit register and advances PC changes, and what it leaves unchanged. -/
theorem State.setReg_advance_effect (s : State) (r : Reg8) (v : Byte) (n : Word) :
    ((s.setReg r v).advance n).reg r = v ∧ (∀ q, q ≠ r → ((s.setReg r v).advance n).reg q = s.reg q) ∧
      ((s.setReg r v).advance n).flags = s.flags ∧ ((s.setReg r v).advance n).pc = s.pc + n ∧
      s.SameBeyondRegisters ((s.setReg r v).advance n) := by
  have hsession : s.SameSession ((s.setReg r v).advance n) := (s.kept_setReg r v).1
  have hbytes : s.SameBytes ((s.setReg r v).advance n) := s.peek_congr _ (by simp) (by simp)
  refine ⟨by simp, fun q hq => ?_, by simp, by simp, by simp, by simp, by simp, hsession, hbytes⟩
  rw [State.reg_advance, s.reg_setReg_other r q v hq]

/-! ## A byte stored, PC advanced -/

/-- A store at a writable address completes, and writes the byte and PC alone. -/
theorem storeByte_advance_effect (s : State) (addr : Word) (v : Byte) (n : Word) (h : s.Writable addr.toNat) :
    ∃ t, storeByte addr v (fun u => u.advance n) s = .next t ∧ s.StoredByte t addr.toNat v ∧
      t = { s with mem := t.mem, pc := s.pc + n } := by
  obtain ⟨u, hu⟩ := s.memWrite_of_writable addr.toNat v h
  obtain ⟨-, hmem, -, hstored⟩ := State.memWrite_ok hu
  have hframe : u.advance n = { s with mem := u.mem, pc := s.pc + n } := congrArg (State.advance · n) hmem
  exact ⟨u.advance n, storeByte_eq hu, hstored, hframe⟩

/-! ## The obligations -/

/-- Settles O16: the opcode's fields name the two registers, and the move writes one register and PC. -/
theorem registerMoveCopies : Obligations.RegisterMoveCopies := by
  intro rd rs s
  exact ⟨classify_move (.reg rd) (.reg rs), _, exec_ldRR rd rs s, s.setReg_advance_effect rd (s.reg rs) 1⟩

/-- Settles O17: the load is one read at the old HL, then the write of one register and PC. -/
theorem loadFromHlIndirect : Obligations.LoadFromHlIndirect := by
  intro rd s
  refine ⟨classify_move (.reg rd) .hlInd, fun e he => ?_, fun hread => ?_⟩
  · rw [exec_ldRHl, loadByte_error he]
  · obtain ⟨v, hv⟩ := (s.memRead_ok_iff s.hl.toNat).mpr hread
    have hexec : exec (.ldRHl rd) s = .next ((s.setReg rd v).advance 1) := (exec_ldRHl rd s).trans (loadByte_eq hv)
    exact ⟨v, _, hv, hexec, s.setReg_advance_effect rd v 1⟩

/-- Settles O18: the store is one write of the register's byte at HL, then the advance of PC. -/
theorem storeToHlIndirect : Obligations.StoreToHlIndirect := by
  intro rs s
  refine ⟨classify_move .hlInd (.reg rs), fun e he => ?_, fun hwrite => ?_⟩
  · rw [exec_ldHlR, storeByte_error he]
  · rw [exec_ldHlR]
    exact storeByte_advance_effect s s.hl (s.reg rs) 1 hwrite

end Sys2Proof.Machine

/-! PROOFS. The 8-bit increment and decrement of a register (spec/41_incdec.md R147 to R150). -/

namespace Sys2Proof.Machine

/-! ## The flag laws, in the values of the result -/

theorem byte_beq_zero (r : Byte) : (r == 0) = decide (r.toNat = 0) :=
  decide_eq_decide.mpr BitVec.toNat_inj.symm

theorem lowNibble_beq (r m : Byte) : (r &&& 0x0F == m) = decide (r.toNat % 16 = m.toNat) := by
  have hnibble : (r &&& 0x0F).toNat = r.toNat % 16 := Nat.and_two_pow_sub_one_eq_mod r.toNat 4
  rw [← hnibble]
  exact decide_eq_decide.mpr BitVec.toNat_inj.symm

theorem Flags.afterInc_eq (f : Flags) (r : Byte) :
    f.afterInc r = ⟨decide (r.toNat = 0), false, decide (r.toNat % 16 = 0), f.c⟩ := by
  rw [Flags.afterInc, byte_beq_zero, lowNibble_beq]
  rfl

theorem Flags.afterDec_eq (f : Flags) (r : Byte) :
    f.afterDec r = ⟨decide (r.toNat = 0), true, decide (r.toNat % 16 = 15), f.c⟩ := by
  rw [Flags.afterDec, byte_beq_zero, lowNibble_beq]
  rfl

/-! ## A register changed in place, with flags -/

theorem State.setReg_withFlags (s : State) (r : Reg8) (v : Byte) (f : Flags) :
    { s.setReg r v with flags := f } = { s with flags := f }.setReg r v := by
  cases r <;> rfl

/-- A read-modify-write of a register that then sets the flags from the old ones and the result: it completes, and
changes that register, F and PC alone. -/
theorem State.modify_reg_effect (s : State) (rd : Reg8) (f : Byte → Byte) (law : Flags → Byte → Flags) (n : Word) :
    ∃ t, s.modify (.reg rd) f (fun _ r u => { u with flags := law u.flags r }.advance n) = .next t ∧
      t.reg rd = f (s.reg rd) ∧ (∀ q, q ≠ rd → t.reg q = s.reg q) ∧ t.flags = law s.flags (t.reg rd) ∧
      t.pc = s.pc + n ∧ s.SameBeyondRegisters t := by
  have hrun := State.modify_eq (s := s) (dst := .reg rd) (f := f)
    (after := fun _ r u => { u with flags := law u.flags r }.advance n) rfl rfl
  rw [State.setReg_flags, State.setReg_withFlags] at hrun
  obtain ⟨hreg, hother, hflags, hpc, hbeyond⟩ :=
    { s with flags := law s.flags (f (s.reg rd)) }.setReg_advance_effect rd (f (s.reg rd)) n
  exact ⟨_, hrun, hreg, hother, hflags.trans (congrArg (law s.flags) hreg.symm), hpc, hbeyond⟩

/-! ## The obligation -/

/-- Settles O24: both are a read-modify-write of one register, with `IncFlags` and `DecFlags` of the result. -/
theorem registerIncrementAndDecrement : Obligations.RegisterIncrementAndDecrement := by
  intro s rd
  obtain ⟨t, hinc, htreg, htother, htflags, htpc, htbeyond⟩ := s.modify_reg_effect rd (· + 1) Flags.afterInc 1
  obtain ⟨u, hdec, hureg, huother, huflags, hupc, hubeyond⟩ := s.modify_reg_effect rd (· - 1) Flags.afterDec 1
  have htval : (t.reg rd).toNat = ((s.reg rd).toNat + 1) % 256 := by rw [htreg]; exact BitVec.toNat_add _ _
  have huval : (u.reg rd).toNat = ((s.reg rd).toNat + 255) % 256 := by
    rw [hureg, BitVec.toNat_sub, Nat.add_comm]
    rfl
  exact ⟨t, u, (exec_incR rd s).trans hinc, htval, htflags.trans (Flags.afterInc_eq _ _),
    (exec_decR rd s).trans hdec, huval, huflags.trans (Flags.afterDec_eq _ _),
    fun q hq => ⟨htother q hq, huother q hq⟩, htpc, hupc, htbeyond, hubeyond⟩

end Sys2Proof.Machine

/-! PROOFS. The logic instructions of the ALU row (spec/42_alu.md R158, R159, R164 to R166). -/

namespace Sys2Proof.Machine

/-! ## The ALU block (R94) -/

/-- In the ALU block the middle field names the operation and the low field the operand. -/
theorem classify_alu (y : BitVec 3) (src : Operand8) (b1 b2 : Byte) :
    classify (0b10#2 ++ y ++ src.code) b1 b2 = classifyAlu y src := by
  unfold classify
  rw [quadrantOf_append, midOf_append, lowOf_append, operandAt_code]
  rfl

/-! ## Each instruction on a readable operand -/

section
variable {s : State} {src : Operand8} {v : Byte} (hv : s.readOperand src = .ok v)
include hv

theorem exec_andR_eq :
    exec (.andR src) s = .next { s with a := s.a &&& v, pc := s.pc + 1, flags := Flags.and (s.a &&& v) } :=
  (exec_andR src s).trans (aluRow_eq hv)

theorem exec_xorR_eq :
    exec (.xorR src) s = .next { s with a := s.a ^^^ v, pc := s.pc + 1, flags := Flags.logic (s.a ^^^ v) } :=
  (exec_xorR src s).trans (aluRow_eq hv)

theorem exec_orR_eq :
    exec (.orR src) s = .next { s with a := s.a ||| v, pc := s.pc + 1, flags := Flags.logic (s.a ||| v) } :=
  (exec_orR src s).trans (aluRow_eq hv)

end

/-- XOR A leaves no trace of the old accumulator, since a byte XORed with itself is 0. -/
theorem exec_xorR_self (s : State) :
    exec (.xorR (.reg .a)) s = .next { s with a := 0, pc := s.pc + 1, flags := Flags.logic 0 } := by
  have hread : s.readOperand (.reg .a) = .ok s.a := rfl
  rw [exec_xorR_eq hread, BitVec.xor_self]
  rfl

/-! ## The obligation -/

/-- Settles O28: the opcode's middle field selects the operation, and each is one read of the operand, then the write of
A, F and PC. -/
theorem logicRowResultAndFlags : Obligations.LogicRowResultAndFlags := by
  intro s src
  refine ⟨fun b1 b2 => ⟨?_, ?_, ?_⟩, fun v hv => ?_, fun e he => ⟨?_, ?_, ?_⟩, exec_xorR_self s⟩
  · exact classify_alu 4 src b1 b2
  · exact classify_alu 5 src b1 b2
  · exact classify_alu 6 src b1 b2
  · exact ⟨exec_andR_eq hv, exec_xorR_eq hv, exec_orR_eq hv⟩
  · exact (exec_andR src s).trans (aluRow_error he)
  · exact (exec_xorR src s).trans (aluRow_error he)
  · exact (exec_orR src s).trans (aluRow_error he)

end Sys2Proof.Machine

/-! PROOFS. HALT, the unbuilt corner of the block of moves (spec/47_unimplemented.md R236). -/

namespace Sys2Proof.Machine

/-- The move with (HL) as both destination and source would be 0x76, and the block of moves puts HALT there (R93). -/
theorem classify_halt (b1 b2 : Byte) : classify 0x76 b1 b2 = .halt := by
  have hfields : (0x76 : Byte) = 0b01#2 ++ Operand8.hlInd.code ++ Operand8.hlInd.code := by decide
  rw [hfields, classify_move]
  rfl

/-- Settles O5: 0x76 is the corner of the block of moves, and HALT raises its opcode. -/
theorem haltRaisesUnimplemented : Obligations.HaltRaisesUnimplemented :=
  ⟨classify_halt, exec_halt⟩

end Sys2Proof.Machine

/-! PROOFS. The fetch, its errors in order, and what a completed step keeps (spec/70_reset_and_hazards.md R290, R302 to R304). -/

namespace Sys2Proof.Machine

/-! ## What a step answers, from what its fetch answers -/

theorem step_of_fetchDecode_ok {s : State} {i : Instr} (hfault : s.fault = none) (hfetch : s.fetchDecode = .ok i) :
    step s = exec i s.recordPc := by
  simp only [step, hfault, hfetch]

theorem step_of_fetchDecode_error {s : State} {e : Fault} (hfault : s.fault = none) (hfetch : s.fetchDecode = .error e) :
    step s = .fault e := by
  simp only [step, hfault, hfetch]

theorem step_of_latched {s : State} {e : Fault} (hfault : s.fault = some e) : step s = .fault e := by
  simp only [step, hfault]

theorem State.fetchDecode_unmoved {s : State} (hprev : s.prevPc = some s.pc) :
    s.fetchDecode = .error (.invariantViolation s.pc) := by
  rw [State.fetchDecode, if_pos hprev]

theorem State.fetchDecode_past {s : State} (hprev : s.prevPc ≠ some s.pc) (hpc : Config.lastFetch < s.pc.toNat) :
    s.fetchDecode = .error (.configurationError 0x10000 s.pc) := by
  rw [State.fetchDecode, if_neg hprev, if_pos hpc]

theorem State.fetchDecode_window_error {s : State} {e : Fault} (hprev : s.prevPc ≠ some s.pc)
    (hpc : s.pc.toNat ≤ Config.lastFetch) (hw : s.fetchWindow = .error e) : s.fetchDecode = .error e := by
  rw [State.fetchDecode, if_neg hprev, if_neg (Nat.not_lt.mpr hpc), hw]

theorem State.fetchDecode_sentinel {s : State} {op b1 b2 : Byte} (hprev : s.prevPc ≠ some s.pc)
    (hpc : s.pc.toNat ≤ Config.lastFetch) (hw : s.fetchWindow = .ok (op, b1, b2)) (hop : op = s.par.sentinel) :
    s.fetchDecode = .error (.invalidOpcode s.pc) := by
  rw [State.fetchDecode, if_neg hprev, if_neg (Nat.not_lt.mpr hpc), hw]
  simp only [if_pos hop]

/-! The three ways the fetch window fails, in address order. -/

theorem State.fetchWindow_error_first {s : State} {e : Fault} (h0 : s.memRead s.pc.toNat = .error e) :
    s.fetchWindow = .error e := by
  simp only [State.fetchWindow, h0]

theorem State.fetchWindow_error_second {s : State} {op : Byte} {e : Fault} (h0 : s.memRead s.pc.toNat = .ok op)
    (h1 : s.memRead (s.pc.toNat + 1) = .error e) : s.fetchWindow = .error e := by
  simp only [State.fetchWindow, h0, h1]

theorem State.fetchWindow_error_third {s : State} {op b1 : Byte} {e : Fault} (h0 : s.memRead s.pc.toNat = .ok op)
    (h1 : s.memRead (s.pc.toNat + 1) = .ok b1) (h2 : s.memRead (s.pc.toNat + 2) = .error e) :
    s.fetchWindow = .error e := by
  simp only [State.fetchWindow, h0, h1, h2]

/-! ## What a completed step keeps -/

/-- A completed step has recorded the PC it started at, and kept the loop state, the parameters and the canonical form. -/
theorem step_kept {s t : State} (h : step s = .next t) : s.recordPc.Kept t := by
  obtain ⟨-, i, -, hexec⟩ := step_next h
  exact exec_kept hexec

theorem step_prevPc {s t : State} (h : step s = .next t) : t.prevPc = some s.pc := by
  obtain ⟨⟨-, -, hprev, -⟩, -⟩ := step_kept h
  exact hprev

theorem step_fault {s t : State} (h : step s = .next t) : t.fault = none := by
  obtain ⟨hnone, -⟩ := step_next h
  obtain ⟨⟨-, hfault, -⟩, -⟩ := step_kept h
  exact hfault.trans hnone

theorem step_run {s t : State} (h : step s = .next t) : t.run = s.run := by
  obtain ⟨⟨hrun, -⟩, -⟩ := step_kept h
  exact hrun

theorem step_par {s t : State} (h : step s = .next t) : t.par = s.par := by
  obtain ⟨⟨-, -, -, hpar⟩, -⟩ := step_kept h
  exact hpar

/-- The invariant is kept: the write laws keep the canonical form, and nothing writes `SENTINEL`. -/
theorem step_inv {s t : State} (h : step s = .next t) (hinv : s.Inv) : t.Inv := by
  obtain ⟨hwf, hlegal⟩ := hinv
  obtain ⟨-, hkeep⟩ := step_kept h
  have hwf' : Memory.wf s.par.sentinel t.mem := hkeep hwf
  rw [State.Inv, step_par h]
  exact ⟨hwf', hlegal⟩

/-! ## The obligations -/

/-- Settles O48, by what every completed instruction keeps and the checks a fetch has passed. -/
theorem everyStepKeepsTheInvariant : Obligations.EveryStepKeepsTheInvariant := by
  intro s t hinv h
  obtain ⟨-, i, hfetch, -⟩ := step_next h
  obtain ⟨-, hpc, -⟩ := State.fetchDecode_ok hfetch
  exact ⟨step_inv h hinv, step_prevPc h, step_fault h, step_run h, step_par h, hpc⟩

/-- Settles O46: a completed step has recorded its PC, which is the first check of the next one. -/
theorem unmovedPcIsFatalAtTheNextStep : Obligations.UnmovedPcIsFatalAtTheNextStep := by
  intro s t h hpc
  have hprev : t.prevPc = some t.pc := by rw [hpc]; exact step_prevPc h
  rw [step_of_fetchDecode_error (step_fault h) (State.fetchDecode_unmoved hprev), hpc]

/-- The decoded instruction runs, from a state that meets every check of the fetch. -/
theorem step_of_fetches {s : State} {op b1 b2 : Byte} (h : s.Fetches op b1 b2) :
    step s = exec (classify op b1 b2) { s with prevPc := some s.pc } := by
  obtain ⟨hfault, hprev, hpc, h0, h1, h2, hop⟩ := h
  exact step_of_fetchDecode_ok hfault (State.fetchDecode_eq hprev hpc (State.fetchWindow_eq h0 h1 h2) hop)

/-- Settles O43: the decoder on a full window is the classifier, which the fetch has applied. -/
theorem stepRunsTheDecodedInstruction : Obligations.StepRunsTheDecodedInstruction := by
  intro s op b1 b2 i hfetches hdecode
  rw [decode_window] at hdecode
  cases hdecode
  exact step_of_fetches hfetches

/-- Settles O45: each error is that of one check of the fetch, the earlier ones passed. -/
theorem stepErrorsInPriorityOrder : Obligations.StepErrorsInPriorityOrder := by
  intro s hfault
  refine ⟨fun hprev => ?_, fun hprev hpc => ?_, fun hprev hpc => ⟨fun e h0 => ?_, fun op e h0 h1 => ?_,
    fun op b1 e h0 h1 h2 => ?_, fun op b1 b2 h0 h1 h2 hop => ?_⟩⟩ <;> apply step_of_fetchDecode_error hfault
  · exact State.fetchDecode_unmoved hprev
  · exact State.fetchDecode_past hprev hpc
  · exact State.fetchDecode_window_error hprev hpc (State.fetchWindow_error_first h0)
  · exact State.fetchDecode_window_error hprev hpc (State.fetchWindow_error_second h0 h1)
  · exact State.fetchDecode_window_error hprev hpc (State.fetchWindow_error_third h0 h1 h2)
  · exact State.fetchDecode_sentinel hprev hpc (State.fetchWindow_eq h0 h1 h2) hop

/-! ## Power-on -/

/-- MEM after power-on lists no cell, so it is canonical, and the invariant asks for a legal `SENTINEL` alone. -/
theorem State.inv_powerOn {p : Config.Params} (r : Config.ResetRegs) (f : Flags) (h : sentinelLegal p.sentinel) :
    (State.powerOn p r f).Inv :=
  ⟨Memory.wf_nil p.sentinel, h⟩

/-- Settles O49: MEM after power-on is empty, and the sentinel of reset is legal. -/
theorem invariantHoldsAtReset : Obligations.InvariantHoldsAtReset :=
  have hlegal : sentinelLegal State.resetParams.sentinel := by decide
  ⟨State.inv_powerOn _ _ hlegal, fun _ => State.inv_powerOn⟩

theorem State.memRead_powerOn (p : Config.Params) (r : Config.ResetRegs) (f : Flags) {addr : Nat} (h : addr < 0xFF00) :
    (State.powerOn p r f).memRead addr = .ok p.sentinel :=
  State.memRead_plain _ addr (Nat.lt_trans h (by decide)) (not_inWindow_iff.mpr (.inl h))

/-- Settles O50: every byte reads as the sentinel, so the first step fetches one at address 0. -/
theorem powerOnIsAllSentinel : Obligations.PowerOnIsAllSentinel := by
  intro p r f s
  have hread : ∀ addr < 0xFF00, s.memRead addr = .ok p.sentinel := fun _ => State.memRead_powerOn p r f
  have hwindow : s.fetchWindow = .ok (p.sentinel, p.sentinel, p.sentinel) :=
    State.fetchWindow_eq (hread 0 (by decide)) (hread 1 (by decide)) (hread 2 (by decide))
  have hstep : step s = .fault (.invalidOpcode 0) :=
    step_of_fetchDecode_error rfl (State.fetchDecode_sentinel (by simp [s, State.powerOn]) (Nat.zero_le _) hwindow rfl)
  exact ⟨rfl, rfl, fun _ => rfl, rfl, rfl, rfl, rfl, hstep⟩

end Sys2Proof.Machine

/-! PROOFS. The decoder and the encoder, back and forth (spec/30_encoding.md R80 to R101). -/

namespace Sys2Proof.Machine

/-! ## The fields of a byte put together -/

theorem byte_of_fields (op : Byte) : quadrantOf op ++ midOf op ++ lowOf op = op := by
  have htop : quadrantOf op ++ midOf op = op.extractLsb' 3 5 := BitVec.extractLsb'_append_extractLsb'_eq_extractLsb' rfl
  have hall : op.extractLsb' 3 5 ++ lowOf op = op.extractLsb' 0 8 := BitVec.extractLsb'_append_extractLsb'_eq_extractLsb' rfl
  rw [htop, hall, BitVec.extractLsb'_eq_self]

/-! The row and the half are the two parts of the middle field. -/

theorem rowOf_eq (op : Byte) : rowOf op = (midOf op).extractLsb' 1 2 := by
  have hmid : rowOf op ++ op.extractLsb' 3 1 = midOf op := BitVec.extractLsb'_append_extractLsb'_eq_extractLsb' rfl
  rw [← hmid]
  exact BitVec.extractLsb'_append_eq_left.symm

theorem halfOf_eq (op : Byte) : halfOf op = (midOf op).getLsbD 0 := by
  simp [halfOf, midOf]

theorem classify_family7 (y : BitVec 3) (b1 b2 : Byte) : classify (0b00#2 ++ y ++ 0b111#3) b1 b2 = .family7 y := by
  rw [classify, classifyQ1, quadrantOf_append, midOf_append, lowOf_append]
  rfl

/-! The four quadrants of the sub-table (R97). -/

theorem classifyPrefixed_rotate (y : BitVec 3) (src : Operand8) :
    classifyPrefixed (0b00#2 ++ y ++ src.code) = classifyRotate y src := by
  rw [classifyPrefixed, quadrantOf_append, midOf_append, lowOf_append, operandAt_code]
  rfl

theorem classifyPrefixed_bitTest (b : BitVec 3) (src : Operand8) :
    classifyPrefixed (0b01#2 ++ b ++ src.code) = classifyBitTest b src := by
  rw [classifyPrefixed, quadrantOf_append, midOf_append, lowOf_append, operandAt_code]
  rfl

theorem classifyPrefixed_res (b : BitVec 3) (src : Operand8) :
    classifyPrefixed (0b10#2 ++ b ++ src.code) = .resBR b src := by
  rw [classifyPrefixed, quadrantOf_append, midOf_append, lowOf_append, operandAt_code]
  rfl

theorem classifyPrefixed_set (b : BitVec 3) (src : Operand8) :
    classifyPrefixed (0b11#2 ++ b ++ src.code) = .setBR b src := by
  rw [classifyPrefixed, quadrantOf_append, midOf_append, lowOf_append, operandAt_code]
  rfl

/-- The one bit test that is built is the one the well-formed `bitBR` leaves out. -/
theorem classifyBitTest_of_wf {b : BitVec 3} {src : Operand8} (h : Instr.wf (.bitBR b src) = true) :
    classifyBitTest b src = .bitBR b src := by
  rw [classifyBitTest, if_neg]
  rintro ⟨rfl, rfl⟩
  cases h

/-! ## Decoding an encoding -/

/-- The decoder looks at three bytes. -/
theorem decode_append (l extra : List Byte) (h : 3 ≤ l.length) : decode (l ++ extra) = decode l := by
  match l, h with
  | _ :: _ :: _ :: _, _ => rfl

/-- An encoding with two more bytes, or more, decodes to its instruction: the fields of its opcode and of its sub-opcode are
those the encoder put there, and a word is read back from its two bytes. -/
theorem decode_encode_padded (i : Instr) (hwf : i.wf = true) (b1 b2 : Byte) (rest : List Byte) :
    decode (encode i ++ b1 :: b2 :: rest) = .ok i := by
  cases i with
  | ldA16Sp a | jpNz a | jp a | callNz a | jpZ a | callZ a | call a | jpNc a | callNc a | jpC a | callC a
  | ldA16A a | ldAA16 a =>
    conv_rhs => rw [← cat_hi_lo a]
    rfl
  | ldRrD16 p w =>
    conv_rhs => rw [← cat_hi_lo w]
    cases p <;> rfl
  | addHlRr p | incRr p | decRr p => cases p <;> rfl
  | incR r | decR r | ldRD8 r n => cases r <;> rfl
  | ldRHl r => exact congrArg Except.ok (classify_move (.reg r) .hlInd b1 b2)
  | ldHlR r => exact congrArg Except.ok (classify_move .hlInd (.reg r) b1 b2)
  | ldRR rd rs => exact congrArg Except.ok (classify_move (.reg rd) (.reg rs) b1 b2)
  | family7 y => exact congrArg Except.ok (classify_family7 y b1 b2)
  | addAR src => exact congrArg Except.ok (classify_alu 0 src b1 b2)
  | adcAR src => exact congrArg Except.ok (classify_alu 1 src b1 b2)
  | subR src => exact congrArg Except.ok (classify_alu 2 src b1 b2)
  | sbcAR src => exact congrArg Except.ok (classify_alu 3 src b1 b2)
  | andR src => exact congrArg Except.ok (classify_alu 4 src b1 b2)
  | xorR src => exact congrArg Except.ok (classify_alu 5 src b1 b2)
  | orR src => exact congrArg Except.ok (classify_alu 6 src b1 b2)
  | cpR src => exact congrArg Except.ok (classify_alu 7 src b1 b2)
  | rlcR src => exact congrArg Except.ok (classifyPrefixed_rotate 0 src)
  | rrcR src => exact congrArg Except.ok (classifyPrefixed_rotate 1 src)
  | rlR src => exact congrArg Except.ok (classifyPrefixed_rotate 2 src)
  | rrR src => exact congrArg Except.ok (classifyPrefixed_rotate 3 src)
  | slaR src => exact congrArg Except.ok (classifyPrefixed_rotate 4 src)
  | sraR src => exact congrArg Except.ok (classifyPrefixed_rotate 5 src)
  | swapR src => exact congrArg Except.ok (classifyPrefixed_rotate 6 src)
  | srlR src => exact congrArg Except.ok (classifyPrefixed_rotate 7 src)
  | bitBR b src => exact congrArg Except.ok ((classifyPrefixed_bitTest b src).trans (classifyBitTest_of_wf hwf))
  | resBR b src => exact congrArg Except.ok (classifyPrefixed_res b src)
  | setBR b src => exact congrArg Except.ok (classifyPrefixed_set b src)
  | _ => rfl

/-- An encoding decodes to its instruction, whatever fills up the window. -/
theorem decode_encode_append (i : Instr) (tail : List Byte) (hwf : i.wf = true) (hlen : 3 ≤ (encode i ++ tail).length) :
    decode (encode i ++ tail) = .ok i :=
  calc decode (encode i ++ tail)
    _ = decode (encode i ++ tail ++ [0, 0]) := (decode_append _ [0, 0] hlen).symm
    _ = decode (encode i ++ (tail ++ [0, 0])) := by rw [List.append_assoc]
    _ = .ok i := by
      match tail with
      | [] => exact decode_encode_padded i hwf 0 0 []
      | [b1] => exact decode_encode_padded i hwf b1 0 [0]
      | b1 :: b2 :: rest => exact decode_encode_padded i hwf b1 b2 (rest ++ [0, 0])

/-- Settles O1, by the decoding of an encoding padded beyond the window, which the decoder does not look at. -/
theorem decodeOfEncodeUnderAnyTrailingBytes : Obligations.DecodeOfEncodeUnderAnyTrailingBytes :=
  decode_encode_append

/-- Settles O3: each word is an encoding that fills its window. -/
theorem wordsOfTheSpecDecode : Obligations.WordsOfTheSpecDecode :=
  ⟨decode_encode_padded (.ldRR .a .b) rfl 0 0 [], decode_encode_append (.ldRrD16 .bc 0xABCD) [] rfl (by decide),
    decode_encode_append (.ldRD8 .a 0x44) [0x87] rfl (by decide), decode_encode_padded (.incR .b) rfl 0 0 [],
    decode_encode_padded (.addAR (.reg .a)) rfl 0 0 [], decode_encode_padded (.xorR (.reg .a)) rfl 0 0 [],
    decode_encode_padded .pushBc rfl 0 0 [], decode_encode_append (.call 0x0010) [] rfl (by decide),
    decode_encode_append (.jr 0xFC) [0] rfl (by decide), decode_encode_append .bit7H [0] rfl (by decide),
    decode_encode_append (.setBR 0 .hlInd) [0] rfl (by decide), decode_encode_append (.ldhA8A 0x80) [0] rfl (by decide),
    decode_encode_padded .halt rfl 0 0 [], decode_encode_append (.swapR (.reg .a)) [0] rfl (by decide)⟩

/-! ## Encoding what was decoded -/

/-- An instruction is well formed and its encoding is the first bytes of a window. -/
def RoundTrips (i : Instr) (op b1 b2 : Byte) : Prop :=
  i.wf = true ∧ encode i = [op, b1, b2].take i.size

theorem word_bytes (op b1 b2 : Byte) : [op, loByte (cat b2 b1), hiByte (cat b2 b1)] = [op, b1, b2] := by
  rw [loByte_cat, hiByte_cat]

/-! One lemma per part of the classifier. -/

section
variable (b1 b2 : Byte)

theorem classifyJumpMisc_roundTrips (y : BitVec 3) :
    RoundTrips (classifyJumpMisc y b1 b2) (0b00#2 ++ y ++ 0#3) b1 b2 := by
  obtain ⟨f⟩ := y
  match f with
  | 1 => exact ⟨rfl, word_bytes _ b1 b2⟩
  | 0 | 2 | 3 | 4 | 5 | 6 | 7 => exact ⟨rfl, rfl⟩

theorem classifyQ1_roundTrips (y fam : BitVec 3) :
    RoundTrips (classifyQ1 (0b00#2 ++ y ++ fam) b1 b2) (0b00#2 ++ y ++ fam) b1 b2 := by
  obtain ⟨f⟩ := fam
  match f with
  | 0 =>
    rw [classifyQ1, lowOf_append, midOf_append]
    exact classifyJumpMisc_roundTrips b1 b2 y
  | 1 =>
    obtain ⟨g⟩ := y
    match g with
    | 0 | 2 | 4 | 6 => exact ⟨rfl, word_bytes _ b1 b2⟩
    | 1 | 3 | 5 | 7 => exact ⟨rfl, rfl⟩
  | 2 | 3 | 4 | 5 | 6 | 7 =>
    obtain ⟨g⟩ := y
    match g with
    | 0 | 1 | 2 | 3 | 4 | 5 | 6 | 7 => exact ⟨rfl, rfl⟩

theorem classifyMove_roundTrips (dst src : Operand8) :
    RoundTrips (classifyMove dst src) (0b01#2 ++ dst.code ++ src.code) b1 b2 := by
  cases dst <;> cases src <;> exact ⟨rfl, rfl⟩

theorem classifyAlu_roundTrips (y : BitVec 3) (src : Operand8) :
    RoundTrips (classifyAlu y src) (0b10#2 ++ y ++ src.code) b1 b2 := by
  obtain ⟨f⟩ := y
  match f with
  | 0 | 1 | 2 | 3 | 4 | 5 | 6 | 7 => exact ⟨rfl, rfl⟩

theorem classifyRotate_roundTrips (y : BitVec 3) (src : Operand8) :
    RoundTrips (classifyRotate y src) 0xCB (0b00#2 ++ y ++ src.code) b2 := by
  obtain ⟨f⟩ := y
  match f with
  | 0 | 1 | 2 | 3 | 4 | 5 | 6 | 7 => exact ⟨rfl, rfl⟩

theorem classifyBitTest_roundTrips (b : BitVec 3) (src : Operand8) :
    RoundTrips (classifyBitTest b src) 0xCB (0b01#2 ++ b ++ src.code) b2 := by
  by_cases hbit : b = 7 ∧ src = .reg .h
  · obtain ⟨rfl, rfl⟩ := hbit
    exact ⟨rfl, rfl⟩
  · have hwf : Instr.wf (.bitBR b src) = true := by simpa [Instr.wf, imp_iff_not_or] using hbit
    rw [classifyBitTest_of_wf hwf]
    exact ⟨hwf, rfl⟩

theorem classifyPrefixed_roundTrips (sub : Byte) : RoundTrips (classifyPrefixed sub) 0xCB sub b2 := by
  rw [← byte_of_fields sub, ← code_operandAt (lowOf sub)]
  generalize quadrantOf sub = q, midOf sub = y, operandAt (lowOf sub) = src
  obtain ⟨f⟩ := q
  match f with
  | 0 => exact classifyPrefixed_rotate y src ▸ classifyRotate_roundTrips b2 y src
  | 1 => exact classifyPrefixed_bitTest y src ▸ classifyBitTest_roundTrips b2 y src
  | 2 => exact classifyPrefixed_res y src ▸ ⟨rfl, rfl⟩
  | 3 => exact classifyPrefixed_set y src ▸ ⟨rfl, rfl⟩

theorem classifyCx_roundTrips (half : Bool) (low : BitVec 3) :
    RoundTrips (classifyCx half low b1 b2) (0b11#2 ++ (0b00#2 ++ BitVec.ofBool half) ++ low) b1 b2 := by
  obtain ⟨f⟩ := low
  match half, f with
  | true, 3 => exact classifyPrefixed_roundTrips b2 b1
  | false, 2 | false, 3 | false, 4 | true, 2 | true, 4 | true, 5 => exact ⟨rfl, word_bytes _ b1 b2⟩
  | false, 0 | false, 1 | false, 5 | false, 6 | false, 7 | true, 0 | true, 1 | true, 6 | true, 7 => exact ⟨rfl, rfl⟩

theorem classifyDx_roundTrips (half : Bool) (low : BitVec 3) :
    RoundTrips (classifyDx half low b1 b2) (0b11#2 ++ (0b01#2 ++ BitVec.ofBool half) ++ low) b1 b2 := by
  obtain ⟨f⟩ := low
  match half, f with
  | false, 2 | false, 4 | true, 2 | true, 4 => exact ⟨rfl, word_bytes _ b1 b2⟩
  | false, 0 | false, 1 | false, 3 | false, 5 | false, 6 | false, 7
  | true, 0 | true, 1 | true, 3 | true, 5 | true, 6 | true, 7 => exact ⟨rfl, rfl⟩

theorem classifyEx_roundTrips (half : Bool) (low : BitVec 3) :
    RoundTrips (classifyEx half low b1 b2) (0b11#2 ++ (0b10#2 ++ BitVec.ofBool half) ++ low) b1 b2 := by
  obtain ⟨f⟩ := low
  match half, f with
  | true, 2 => exact ⟨rfl, word_bytes _ b1 b2⟩
  | false, 0 | false, 1 | false, 2 | false, 3 | false, 4 | false, 5 | false, 6 | false, 7
  | true, 0 | true, 1 | true, 3 | true, 4 | true, 5 | true, 6 | true, 7 => exact ⟨rfl, rfl⟩

theorem classifyFx_roundTrips (half : Bool) (low : BitVec 3) :
    RoundTrips (classifyFx half low b1 b2) (0b11#2 ++ (0b11#2 ++ BitVec.ofBool half) ++ low) b1 b2 := by
  obtain ⟨f⟩ := low
  match half, f with
  | true, 2 => exact ⟨rfl, word_bytes _ b1 b2⟩
  | false, 0 | false, 1 | false, 2 | false, 3 | false, 4 | false, 5 | false, 6 | false, 7
  | true, 0 | true, 1 | true, 3 | true, 4 | true, 5 | true, 6 | true, 7 => exact ⟨rfl, rfl⟩

theorem classifyQ4_roundTrips (y low : BitVec 3) :
    RoundTrips (classifyQ4 (0b11#2 ++ y ++ low) b1 b2) (0b11#2 ++ y ++ low) b1 b2 := by
  rw [classifyQ4, rowOf_eq, halfOf_eq, midOf_append, lowOf_append]
  obtain ⟨f⟩ := y
  match f with
  | 0 => exact classifyCx_roundTrips b1 b2 false low
  | 1 => exact classifyCx_roundTrips b1 b2 true low
  | 2 => exact classifyDx_roundTrips b1 b2 false low
  | 3 => exact classifyDx_roundTrips b1 b2 true low
  | 4 => exact classifyEx_roundTrips b1 b2 false low
  | 5 => exact classifyEx_roundTrips b1 b2 true low
  | 6 => exact classifyFx_roundTrips b1 b2 false low
  | 7 => exact classifyFx_roundTrips b1 b2 true low

/-- The classifier loses no bit of the window it uses: by quadrant, the fields of the opcode taken apart. -/
theorem classify_roundTrips (op : Byte) : RoundTrips (classify op b1 b2) op b1 b2 := by
  rw [← byte_of_fields op]
  generalize quadrantOf op = q, midOf op = y, lowOf op = low
  rw [classify, quadrantOf_append, midOf_append, lowOf_append]
  obtain ⟨f⟩ := q
  match f with
  | 0 => exact classifyQ1_roundTrips b1 b2 y low
  | 1 =>
    have hmove := classifyMove_roundTrips b1 b2 (operandAt y) (operandAt low)
    rwa [code_operandAt, code_operandAt] at hmove
  | 2 =>
    have halu := classifyAlu_roundTrips b1 b2 y (operandAt low)
    rwa [code_operandAt] at halu
  | 3 => exact classifyQ4_roundTrips b1 b2 y low

end

/-- Settles O2: the window is classified by its first byte, and each part of the classifier round-trips. -/
theorem encodeOfDecodeGivesBackTheWindow : Obligations.EncodeOfDecodeGivesBackTheWindow := by
  intro op b1 b2 rest
  obtain ⟨hwf, hencode⟩ := classify_roundTrips b1 b2 op
  exact ⟨classify op b1 b2, decode_window op b1 b2 rest, hwf, hencode⟩

end Sys2Proof.Machine

/-! PROOFS. An encoding that lies in plain storage runs, and a store is seen by the next fetch (spec/20_memory.md R66,
spec/70_reset_and_hazards.md R303). -/

namespace Sys2Proof.Machine

theorem State.memRead_outside_window (s : State) {addr : Nat} (hlt : addr < 0x10000) (hout : addr < 0xFF00 ∨ 0xFF7F < addr) :
    s.memRead addr = .ok (s.peek addr) :=
  s.memRead_plain addr hlt (not_inWindow_iff.mpr hout)

theorem State.memWrite_outside_window (s : State) {addr : Nat} (v : Byte) (hlt : addr < 0x10000)
    (hout : addr < 0xFF00 ∨ 0xFF7F < addr) : s.memWrite addr v = .ok (s.poke addr v) :=
  s.memWrite_plain addr v hlt (not_inWindow_iff.mpr hout)

/-- No implemented opcode is the sentinel, whose constraint puts it among the unassigned bytes (R248). -/
theorem ne_sentinel_of_assigned {op sentinel : Byte} (hlegal : sentinelLegal sentinel) (hop : op ∉ unassigned) :
    op ≠ sentinel := by
  rintro rfl
  exact hop hlegal.1

/-- Settles O44: the three bytes are read from plain storage, the first is not the sentinel, and they decode to the
instruction they encode. -/
theorem placedInstructionRuns : Obligations.PlacedInstructionRuns := by
  intro s i op b1 b2 tail hlegal hfault hprev hpc h0 h1 h2 hwf hencode hop
  have hdecode : decode [op, b1, b2] = .ok i := by
    rw [← hencode]
    exact decode_encode_append i tail hwf (by rw [hencode]; rfl)
  have hlast : s.pc.toNat ≤ Config.lastFetch := by
    rw [Config.lastFetch]
    omega
  have hread (k : Nat) (hk : k ≤ 2) : s.memRead (s.pc.toNat + k) = .ok (s.peek (s.pc.toNat + k)) :=
    s.memRead_outside_window (by omega) (by omega)
  subst h0 h1 h2
  exact stepRunsTheDecodedInstruction s _ _ _ i
    ⟨hfault, hprev, hlast, hread 0 (by decide), hread 1 (by decide), hread 2 (by decide),
      ne_sentinel_of_assigned hlegal hop⟩
    hdecode

/-- LD (a16),A to plain storage. -/
theorem exec_ldA16A_outside_window (s : State) (addr : Word) (hout : addr.toNat < 0xFF00 ∨ 0xFF7F < addr.toNat) :
    exec (.ldA16A addr) s = .next ((s.poke addr.toNat s.a).advance 3) :=
  (exec_ldA16A addr s).trans (storeByte_eq (s.memWrite_outside_window s.a addr.isLt hout))

/-- The state after a step at LD (a16),A whose address is that of the next instruction. -/
def State.afterStoreOfNextByte (s : State) : State := (s.recordPc.poke (s.pc + 3).toNat s.a).advance 3

/-- Settles O60: both instructions lie in plain storage, and the byte at the second's address is the one the first stored. -/
theorem selfModifyingStoreIsFetched : Obligations.SelfModifyingStoreIsFetched := by
  intro s i hlegal hfault hprev hpc h0 h1 h2 hencode hwf hassigned
  have hpc3 : (s.pc + 3).toNat = s.pc.toNat + 3 := by
    rw [BitVec.toNat_add]
    exact Nat.mod_eq_of_lt (by change s.pc.toNat + 3 < 65536; omega)
  have hstore : step s = .next s.afterStoreOfNextByte := by
    rw [placedInstructionRuns s (.ldA16A (s.pc + 3)) _ _ _ [] hlegal hfault hprev (by omega) h0 h1 h2 rfl rfl (by decide)]
    exact exec_ldA16A_outside_window s.recordPc (s.pc + 3) (by omega)
  have hseen : s.afterStoreOfNextByte.peek (s.pc + 3).toNat = s.a :=
    (State.peek_poke s.recordPc _ _ s.a).trans (if_pos rfl)
  have hmoved : some s.pc ≠ some (s.pc + 3) := by
    intro heq
    have := congrArg BitVec.toNat (Option.some.inj heq)
    omega
  have hrange : (s.pc + 3).toNat ≤ 0xFEFD := by omega
  refine ⟨s.afterStoreOfNextByte, hstore, rfl, ?_⟩
  exact placedInstructionRuns s.afterStoreOfNextByte i _ _ _ [_, _] hlegal hfault hmoved (.inl hrange) hseen rfl rfl hwf
    (by rw [hencode]; rfl) hassigned

end Sys2Proof.Machine

/-! PROOFS. The rows that are not built stop and name their encoding, every other instruction stops by an access alone, and none
is refused (spec/47_unimplemented.md R235 to R247, spec/45_prefixed_cb.md R217). -/

namespace Sys2Proof.Machine

/-! ## What stops an instruction -/

/-- The rows of the opcode table with status `unimplemented`. -/
def unbuilt : Instr → Bool
  | .ldA16Sp _ | .stop | .addHlRr _ | .family7 _ | .halt | .ldCA | .ldAC | .addSpR8 _ | .ldHlSpR8 _ | .ldSpHl => true
  | .retNz | .retZ | .retNc | .retC | .jpNz _ | .jpZ _ | .jpNc _ | .jpC _ | .jpHl => true
  | .addAD8 _ | .adcAD8 _ | .subD8 _ | .sbcAD8 _ | .andD8 _ | .xorD8 _ | .orD8 _ => true
  | .rst00 | .rst08 | .rst10 | .rst18 | .rst20 | .rst28 | .rst30 | .rst38 => true
  | .undefD3 | .undefDB | .undefDD | .undefE3 | .undefE4 | .undefEB | .undefEC | .undefED | .undefF4 | .undefFC
  | .undefFD => true
  | .rrcR _ | .rrR _ | .slaR _ | .sraR _ | .swapR _ | .srlR _ | .bitBR _ _ => true
  | _ => false

/-- What `Unimplemented` names of an encoding (R261): its opcode, or its sub-opcode after 0xCB. -/
def nameOf : List Byte → Unbuilt
  | [op, sub] => if op = 0xCB then .sub sub else .opcode op
  | op :: _ => .opcode op
  | [] => .opcode 0

/-- A row that is not built raises its own name, row by row of the opcode table. -/
theorem exec_of_unbuilt {i : Instr} (h : unbuilt i = true) (s : State) :
    exec i s = .fault (.unimplemented (nameOf (encode i)) s.pc) := by
  cases i <;> cases h <;> rfl

/-- The errors an access of memory raises. -/
def Fault.ByAccess : Fault → Prop
  | .unimplemented (.port _) _ | .undocumentedPort _ _ _ | .configurationError _ _ => True
  | _ => False

/-- An answer that is no refusal, and no error but that of an access. -/
def StopsByAccess : Answer → Prop
  | .next _ => True
  | .fault e => e.ByAccess
  | .refused _ => False

theorem State.memRead_error {s : State} {addr : Nat} {e : Fault} (h : s.memRead addr = .error e) : e.ByAccess := by
  unfold State.memRead at h
  split at h
  · cases h; trivial
  · split at h
    · cases h
    · split at h <;> cases h <;> trivial

theorem State.memWrite_error {s : State} {addr : Nat} {v : Byte} {e : Fault} (h : s.memWrite addr v = .error e) :
    e.ByAccess := by
  unfold State.memWrite at h
  split at h
  · cases h; trivial
  · split at h
    · cases h
    · split at h <;> cases h <;> trivial

theorem State.readOperand_error {s : State} {src : Operand8} {e : Fault} (h : s.readOperand src = .error e) :
    e.ByAccess := by
  cases src with
  | reg r => cases h
  | hlInd => exact State.memRead_error h

theorem State.writeOperand_error {s : State} {dst : Operand8} {v : Byte} {e : Fault}
    (h : s.writeOperand dst v = .error e) : e.ByAccess := by
  cases dst with
  | reg r => cases h
  | hlInd => exact State.memWrite_error h

/-! The shapes of the meanings. -/

theorem storeByte_stopsByAccess (addr : Word) (v : Byte) (after : State → State) (s : State) :
    StopsByAccess (storeByte addr v after s) := by
  cases hw : s.memWrite addr.toNat v with
  | ok t => rw [storeByte_eq hw]; trivial
  | error e => rw [storeByte_error hw]; exact State.memWrite_error hw

theorem loadByte_stopsByAccess (addr : Word) (after : Byte → State → State) (s : State) :
    StopsByAccess (loadByte addr after s) := by
  cases hr : s.memRead addr.toNat with
  | ok v => rw [loadByte_eq hr]; trivial
  | error e => rw [loadByte_error hr]; exact State.memRead_error hr

theorem modify_stopsByAccess (s : State) (dst : Operand8) (f : Byte → Byte) (after : Byte → Byte → State → State) :
    StopsByAccess (s.modify dst f after) := by
  cases hr : s.readOperand dst with
  | error e => rw [State.modify_read_error hr]; exact State.readOperand_error hr
  | ok v =>
    cases hw : s.writeOperand dst (f v) with
    | ok t => rw [State.modify_eq hr hw]; trivial
    | error e => rw [State.modify_write_error hr hw]; exact State.writeOperand_error hw

theorem aluRow_stopsByAccess (result : Byte → Byte → Bool → Byte) (flags : Byte → Byte → Flags) (writesA : Bool)
    (src : Operand8) (s : State) : StopsByAccess (aluRow result flags writesA src s) := by
  cases hr : s.readOperand src with
  | ok v => rw [aluRow_eq hr]; trivial
  | error e => rw [aluRow_error hr]; exact State.readOperand_error hr

theorem pushThen_stopsByAccess (w : Word) (after : State → State) (s : State) : StopsByAccess (pushThen w after s) := by
  cases hlo : { s with sp := s.sp - 2 }.memWrite (s.sp - 2).toNat (loByte w) with
  | error e => rw [pushThen_error (State.push16_low_error hlo)]; exact State.memWrite_error hlo
  | ok u =>
    cases hhi : u.memWrite ((s.sp - 2).toNat + 1) (hiByte w) with
    | error e => rw [pushThen_error (State.push16_high_error hlo hhi)]; exact State.memWrite_error hhi
    | ok t =>
      have hpush : s.push16 w = .ok t := by simp only [State.push16, hlo, hhi]
      rw [pushThen_eq hpush]; trivial

theorem popThen_stopsByAccess (dest : Word → State → State) (s : State) : StopsByAccess (popThen dest s) := by
  cases hlo : s.memRead s.sp.toNat with
  | error e => rw [popThen_error (State.top16_low_error hlo)]; exact State.memRead_error hlo
  | ok lo =>
    cases hhi : s.memRead (s.sp.toNat + 1) with
    | error e => rw [popThen_error (State.top16_high_error hlo hhi)]; exact State.memRead_error hhi
    | ok hi => rw [popThen_eq (State.top16_eq hlo hhi)]; trivial

theorem callIf_stopsByAccess (cond : Bool) (target : Word) (s : State) : StopsByAccess (callIf cond target s) := by
  cases cond with
  | true => exact pushThen_stopsByAccess (s.pc + 3) _ s
  | false => trivial

theorem exec_stopsByAccess {i : Instr} (h : unbuilt i = false) (s : State) : StopsByAccess (exec i s) := by
  cases i with
  | ldBcA | ldDeA | ldHlIncA | ldHlDecA | ldHlR _ | ldHlD8 _ | ldhA8A _ | ldA16A _ => exact storeByte_stopsByAccess _ _ _ s
  | ldABc | ldADe | ldAHlInc | ldAHlDec | ldRHl _ | ldhAA8 _ | ldAA16 _ =>
    simp only [exec_ldABc, exec_ldADe, exec_ldAHlInc, exec_ldAHlDec, exec_ldRHl, exec_ldhAA8, exec_ldAA16]
    exact loadByte_stopsByAccess _ _ s
  | incR _ | incHl | decR _ | decHl | rlcR _ | rlR _ | resBR _ _ | setBR _ _ =>
    simp only [exec_incR, exec_incHl, exec_decR, exec_decHl, exec_rlcR, exec_rlR, exec_resBR, exec_setBR]
    exact modify_stopsByAccess s _ _ _
  | addAR _ | adcAR _ | subR _ | sbcAR _ | andR _ | xorR _ | orR _ | cpR _ =>
    simp only [exec_addAR, exec_adcAR, exec_subR, exec_sbcAR, exec_andR, exec_xorR, exec_orR, exec_cpR]
    exact aluRow_stopsByAccess _ _ _ _ s
  | pushBc | pushDe | pushHl | pushAf | call _ => exact pushThen_stopsByAccess _ _ s
  | popBc | popDe | popHl | popAf | ret | reti =>
    simp only [exec_popBc, exec_popDe, exec_popHl, exec_popAf, exec_ret, exec_reti]
    exact popThen_stopsByAccess _ s
  | callNz _ | callZ _ | callNc _ | callC _ => exact callIf_stopsByAccess _ _ s
  | nop | jr _ | jrNz _ | jrZ _ | jrNc _ | jrC _ | jp _ | ldRrD16 _ _ | incRr _ | decRr _ | ldRD8 _ _ | ldRR _ _ | cpD8 _
  | bit7H | di | ei => trivial
  | _ => cases h

theorem exec_ne_refused (i : Instr) (s : State) (r : Refusal) : exec i s ≠ .refused r := by
  intro hrefused
  cases hb : unbuilt i with
  | true => simp [exec_of_unbuilt hb s] at hrefused
  | false =>
    have haccess := exec_stopsByAccess hb s
    rw [hrefused] at haccess
    exact haccess

/-- An instruction raises `Unimplemented` for an encoding exactly when its row is not built, and then for its own. -/
theorem exec_fault_unimplemented_iff (i : Instr) (s : State) (w : Unbuilt) (hport : ∀ addr, w ≠ .port addr) :
    exec i s = .fault (.unimplemented w s.pc) ↔ unbuilt i = true ∧ nameOf (encode i) = w := by
  cases hb : unbuilt i with
  | true => simp [exec_of_unbuilt hb s]
  | false =>
    refine ⟨fun hfault => ?_, fun ⟨hno, _⟩ => nomatch hno⟩
    have haccess := exec_stopsByAccess hb s
    rw [hfault] at haccess
    cases w with
    | port addr => exact absurd rfl (hport addr)
    | opcode op => cases haccess
    | sub sub => cases haccess

/-! ## Which bytes are not built -/

/-- Whether a row is built is told by its opcode, the 0xCB rows aside: row by row of the opcode table. -/
theorem unbuilt_iff_opcode_unassigned (i : Instr) (hop : (encode i).headD 0 ≠ 0xCB) :
    unbuilt i = true ↔ (encode i).headD 0 ∈ unassigned := by
  cases i with
  | ldRrD16 p _ | addHlRr p | incRr p | decRr p => cases p <;> exact of_decide_eq_true rfl
  | incR r | decR r | ldRD8 r _ | ldRHl r | ldHlR r => cases r <;> exact of_decide_eq_true rfl
  | ldRR rd rs => cases rd <;> cases rs <;> exact of_decide_eq_true rfl
  | addAR src | adcAR src | subR src | sbcAR src | andR src | xorR src | orR src | cpR src =>
    cases src with
    | reg r => cases r <;> exact of_decide_eq_true rfl
    | hlInd => exact of_decide_eq_true rfl
  | family7 y =>
    obtain ⟨f⟩ := y
    match f with
    | 0 | 1 | 2 | 3 | 4 | 5 | 6 | 7 => exact of_decide_eq_true rfl
  | rlcR _ | rrcR _ | rlR _ | rrR _ | slaR _ | sraR _ | swapR _ | srlR _ | bit7H | bitBR _ _ | resBR _ _ | setBR _ _ =>
    exact absurd rfl hop
  | _ => exact of_decide_eq_true rfl

/-- The first bytes of a window name its opcode. -/
theorem nameOf_window {op : Byte} (hop : op ≠ 0xCB) (b1 b2 : Byte) {n : Nat} (hn : 1 ≤ n) :
    nameOf ([op, b1, b2].take n) = .opcode op := by
  match n with
  | 1 => rfl
  | 2 => exact if_neg hop
  | n + 3 => rfl

theorem headD_window (op b1 b2 : Byte) {n : Nat} (hn : 1 ≤ n) : ([op, b1, b2].take n).headD 0 = op := by
  match n with
  | n + 1 => rfl

/-- The family of Laws/PerInstr.lean, for every instruction. -/
theorem encodeSize (i : Instr) : Laws.EncodeSize.Statement i := by
  cases i <;> exact ⟨rfl, of_decide_eq_true rfl, of_decide_eq_true rfl⟩

/-- Settles O4: the window's instruction is encoded with the opcode first, which tells whether its row is built, and an unbuilt
row names it. -/
theorem unassignedBytesAreExactlyTheUnimplementedOpcodes : Obligations.UnassignedBytesAreExactlyTheUnimplementedOpcodes := by
  refine ⟨by decide, by decide, fun op b1 b2 s hop => ?_⟩
  obtain ⟨-, hencode⟩ := classify_roundTrips b1 b2 op
  obtain ⟨-, hsize, -⟩ := encodeSize (classify op b1 b2)
  have hhead : (encode (classify op b1 b2)).headD 0 = op := by rw [hencode, headD_window op b1 b2 hsize]
  have hname : nameOf (encode (classify op b1 b2)) = .opcode op := by rw [hencode, nameOf_window hop b1 b2 hsize]
  have hunbuilt := unbuilt_iff_opcode_unassigned (classify op b1 b2) (by rwa [hhead])
  rw [hhead] at hunbuilt
  rw [exec_fault_unimplemented_iff _ _ _ (by simp), hunbuilt, and_iff_left hname]

/-- Settles O6, by the meaning of each row. -/
theorem unbuiltFirstBytesStop : Obligations.UnbuiltFirstBytesStop := by
  intro s a p y n
  exact ⟨exec_stop s, exec_ldA16Sp a s, exec_addHlRr p s, exec_family7 y s, exec_retNz s, exec_retZ s, exec_retNc s,
    exec_retC s, exec_jpNz a s, exec_jpZ a s, exec_jpNc a s, exec_jpC a s, exec_jpHl s, exec_addAD8 n s, exec_adcAD8 n s,
    exec_subD8 n s, exec_sbcAD8 n s, exec_andD8 n s, exec_xorD8 n s, exec_orD8 n s, exec_rst00 s, exec_rst08 s, exec_rst10 s,
    exec_rst18 s, exec_rst20 s, exec_rst28 s, exec_rst30 s, exec_rst38 s, exec_ldCA s, exec_ldAC s, exec_addSpR8 n s,
    exec_ldHlSpR8 n s, exec_ldSpHl s, exec_undefD3 s, exec_undefDB s, exec_undefDD s, exec_undefE3 s, exec_undefE4 s,
    exec_undefEB s, exec_undefEC s, exec_undefED s, exec_undefF4 s, exec_undefFC s, exec_undefFD s⟩

theorem classifyPrefixed_size (sub : Byte) : (classifyPrefixed sub).size = 2 := by
  revert sub
  decide

/-- Which of the 256 sub-opcodes are not built. -/
theorem unbuilt_classifyPrefixed_iff (sub : Byte) :
    unbuilt (classifyPrefixed sub) = true ↔
      (0x08 ≤ sub.toNat ∧ sub.toNat ≤ 0x0F) ∨ (0x18 ≤ sub.toNat ∧ sub.toNat ≤ 0x7F ∧ sub.toNat ≠ 0x7C) := by
  revert sub
  decide

/-- Settles O7: the sub-opcode is the second byte of its instruction's encoding, and an unbuilt row names it. -/
theorem unbuiltPrefixedRowsStop : Obligations.UnbuiltPrefixedRowsStop := by
  refine ⟨fun s b src => ⟨exec_rrcR src s, exec_rrR src s, exec_slaR src s, exec_sraR src s, exec_swapR src s,
    exec_srlR src s, exec_bitBR b src s⟩, fun sub b2 s => ?_⟩
  have hclassify : classify 0xCB sub b2 = classifyPrefixed sub := rfl
  have hname : nameOf (encode (classifyPrefixed sub)) = .sub sub := by
    obtain ⟨-, hencode⟩ := classifyPrefixed_roundTrips b2 sub
    rw [hencode, classifyPrefixed_size]
    rfl
  rw [hclassify, exec_fault_unimplemented_iff _ _ _ (by simp), unbuilt_classifyPrefixed_iff, and_iff_left hname]

/-- Settles O51: a row that is not built raises an error, and every other instruction stops by an access alone. -/
theorem noInstructionIsRefused : Obligations.NoInstructionIsRefused := by
  intro i s r
  refine ⟨exec_ne_refused i s r, fun hstep => ?_⟩
  cases hfault : s.fault with
  | some e => simp [step_of_latched hfault] at hstep
  | none =>
    cases hfetch : s.fetchDecode with
    | error e => simp [step_of_fetchDecode_error hfault hfetch] at hstep
    | ok j => exact exec_ne_refused j s.recordPc r (step_of_fetchDecode_ok hfault hfetch ▸ hstep)

end Sys2Proof.Machine

/-! PROOFS. What an instruction may change, and that PC moves (spec/10_state.md R29, R30, R32, R33, spec/20_memory.md R61,
spec/70_reset_and_hazards.md R305). -/

namespace Sys2Proof.Machine

/-! ## The shapes of the meanings, with the next state written out -/

theorem State.memWrite_changes_mem {s t : State} {addr : Nat} {v : Byte} (h : s.memWrite addr v = .ok t) :
    ∃ m, t = { s with mem := m } := by
  obtain ⟨-, hmem, -⟩ := State.memWrite_ok h
  exact ⟨t.mem, hmem⟩

theorem storeByte_effect {addr : Word} {v : Byte} {after : State → State} {s t : State}
    (h : storeByte addr v after s = .next t) : ∃ m, t = after { s with mem := m } := by
  obtain ⟨u, hu, rfl⟩ := storeByte_next h
  obtain ⟨m, rfl⟩ := State.memWrite_changes_mem hu
  exact ⟨m, rfl⟩

theorem modify_reg_next {r : Reg8} {f : Byte → Byte} {after : Byte → Byte → State → State} {s t : State}
    (h : s.modify (.reg r) f after = .next t) : t = after (s.reg r) (f (s.reg r)) (s.setReg r (f (s.reg r))) := by
  cases h
  rfl

theorem modify_hl_effect {f : Byte → Byte} {after : Byte → Byte → State → State} {s t : State}
    (h : s.modify .hlInd f after = .next t) : ∃ v m, t = after v (f v) { s with mem := m } := by
  obtain ⟨v, u, -, hu, rfl⟩ := State.modify_next h
  obtain ⟨m, rfl⟩ := State.memWrite_changes_mem hu
  exact ⟨v, m, rfl⟩

theorem State.push16_effect {s t : State} {w : Word} (h : s.push16 w = .ok t) :
    ∃ m, t = { s with sp := s.sp - 2, mem := m } := by
  obtain ⟨u, -, -, heq, -⟩ := State.push16_ok h
  exact ⟨t.mem, heq⟩

theorem pushThen_effect {w : Word} {after : State → State} {s t : State} (h : pushThen w after s = .next t) :
    ∃ m, t = after { s with sp := s.sp - 2, mem := m } := by
  obtain ⟨u, hu, rfl⟩ := pushThen_next h
  obtain ⟨m, rfl⟩ := State.push16_effect hu
  exact ⟨m, rfl⟩

theorem callIf_effect {cond : Bool} {target : Word} {s t : State} (h : callIf cond target s = .next t) :
    (∃ m, t = { s with sp := s.sp - 2, mem := m, pc := target }) ∨ t = s.advance 3 := by
  rcases callIf_next h with ⟨-, u, hu, rfl⟩ | ⟨-, rfl⟩
  · obtain ⟨m, rfl⟩ := State.push16_effect hu
    exact .inl ⟨m, rfl⟩
  · exact .inr rfl

theorem relativeJump_effect {cond : Bool} {off : Byte} {s t : State} (h : relativeJump cond off s = .next t) :
    t = s.jumpTo (s.pc + 2 + sext16 off) ∨ t = s.advance 2 := by
  cases cond <;> cases h
  · exact .inr rfl
  · exact .inl rfl

/-! ## What the lists of Safety.lean leave unchanged -/

/-- What an instruction outside a list leaves unchanged, and where PC goes when it transfers no control. -/
structure Frame (i : Instr) (s t : State) : Prop where
  flags : i.writesFlags = false → t.flags = s.flags
  carry : i.writesCarry = false → t.flags.c = s.flags.c
  sp : i.writesSp = false → t.sp = s.sp
  mem : i.storesMemory = false → t.mem = s.mem
  ime : i.writesIme = false → t.ime = s.ime
  pc : i.transfersControl = false → t.pc = s.pc + BitVec.ofNat 16 i.size

/-- Only the registers and PC change. -/
theorem Frame.of_registers {i : Instr} {s t : State} (hflags : t.flags = s.flags) (hsp : t.sp = s.sp) (hmem : t.mem = s.mem)
    (hime : t.ime = s.ime) (hpc : t.pc = s.pc + BitVec.ofNat 16 i.size) : Frame i s t :=
  ⟨fun _ => hflags, fun _ => congrArg Flags.c hflags, fun _ => hsp, fun _ => hmem, fun _ => hime, fun _ => hpc⟩

theorem exec_frame {i : Instr} {s t : State} (h : exec i s = .next t) : Frame i s t := by
  cases i with
  | ldBcA | ldDeA | ldHlIncA | ldHlDecA | ldHlR _ | ldHlD8 _ | ldhA8A _ | ldA16A _ =>
    simp only [exec_ldBcA, exec_ldDeA, exec_ldHlIncA, exec_ldHlDecA, exec_ldHlR, exec_ldHlD8, exec_ldhA8A, exec_ldA16A] at h
    obtain ⟨m, rfl⟩ := storeByte_effect h
    exact ⟨fun _ => rfl, fun _ => rfl, fun _ => rfl, nofun, fun _ => rfl, fun _ => rfl⟩
  | ldABc | ldADe | ldAHlInc | ldAHlDec | ldhAA8 _ | ldAA16 _ =>
    simp only [exec_ldABc, exec_ldADe, exec_ldAHlInc, exec_ldAHlDec, exec_ldhAA8, exec_ldAA16] at h
    obtain ⟨v, -, rfl⟩ := loadByte_next h
    exact .of_registers rfl rfl rfl rfl rfl
  | ldRHl rd =>
    rw [exec_ldRHl] at h
    obtain ⟨v, -, rfl⟩ := loadByte_next h
    cases rd <;> exact .of_registers rfl rfl rfl rfl rfl
  | ldRR rd _ | ldRD8 rd _ =>
    cases h
    cases rd <;> exact .of_registers rfl rfl rfl rfl rfl
  | ldRrD16 p _ | incRr p | decRr p =>
    cases h
    cases p with
    | bc | de | hl => exact .of_registers rfl rfl rfl rfl rfl
    | sp => exact ⟨fun _ => rfl, fun _ => rfl, nofun, fun _ => rfl, fun _ => rfl, fun _ => rfl⟩
  | incR rd | decR rd =>
    simp only [exec_incR, exec_decR] at h
    rw [modify_reg_next h]
    cases rd <;> exact ⟨nofun, fun _ => rfl, fun _ => rfl, fun _ => rfl, fun _ => rfl, fun _ => rfl⟩
  | incHl | decHl =>
    simp only [exec_incHl, exec_decHl] at h
    obtain ⟨v, m, rfl⟩ := modify_hl_effect h
    exact ⟨nofun, fun _ => rfl, fun _ => rfl, nofun, fun _ => rfl, fun _ => rfl⟩
  | rlcR src | rlR src =>
    simp only [exec_rlcR, exec_rlR] at h
    cases src with
    | reg r =>
      rw [modify_reg_next h]
      cases r <;> exact ⟨nofun, nofun, fun _ => rfl, fun _ => rfl, fun _ => rfl, fun _ => rfl⟩
    | hlInd =>
      obtain ⟨v, m, rfl⟩ := modify_hl_effect h
      exact ⟨nofun, nofun, fun _ => rfl, nofun, fun _ => rfl, fun _ => rfl⟩
  | resBR _ src | setBR _ src =>
    simp only [exec_resBR, exec_setBR] at h
    cases src with
    | reg r =>
      rw [modify_reg_next h]
      cases r <;> exact .of_registers rfl rfl rfl rfl rfl
    | hlInd =>
      obtain ⟨v, m, rfl⟩ := modify_hl_effect h
      exact ⟨fun _ => rfl, fun _ => rfl, fun _ => rfl, nofun, fun _ => rfl, fun _ => rfl⟩
  | addAR _ | adcAR _ | subR _ | sbcAR _ | andR _ | xorR _ | orR _ | cpR _ =>
    simp only [exec_addAR, exec_adcAR, exec_subR, exec_sbcAR, exec_andR, exec_xorR, exec_orR, exec_cpR] at h
    obtain ⟨v, -, rfl⟩ := aluRow_next h
    exact ⟨nofun, nofun, fun _ => rfl, fun _ => rfl, fun _ => rfl, fun _ => rfl⟩
  | pushBc | pushDe | pushHl | pushAf =>
    simp only [exec_pushBc, exec_pushDe, exec_pushHl, exec_pushAf] at h
    obtain ⟨m, rfl⟩ := pushThen_effect h
    exact ⟨fun _ => rfl, fun _ => rfl, nofun, nofun, fun _ => rfl, fun _ => rfl⟩
  | popBc | popDe | popHl =>
    simp only [exec_popBc, exec_popDe, exec_popHl] at h
    obtain ⟨w, -, rfl⟩ := popThen_next h
    exact ⟨fun _ => rfl, fun _ => rfl, nofun, fun _ => rfl, fun _ => rfl, fun _ => rfl⟩
  | popAf =>
    rw [exec_popAf] at h
    obtain ⟨w, -, rfl⟩ := popThen_next h
    exact ⟨nofun, nofun, nofun, fun _ => rfl, fun _ => rfl, fun _ => rfl⟩
  | ret =>
    rw [exec_ret] at h
    obtain ⟨w, -, rfl⟩ := popThen_next h
    exact ⟨fun _ => rfl, fun _ => rfl, nofun, fun _ => rfl, fun _ => rfl, nofun⟩
  | reti =>
    rw [exec_reti] at h
    obtain ⟨w, -, rfl⟩ := popThen_next h
    exact ⟨fun _ => rfl, fun _ => rfl, nofun, fun _ => rfl, nofun, nofun⟩
  | call _ =>
    rw [exec_call] at h
    obtain ⟨m, rfl⟩ := pushThen_effect h
    exact ⟨fun _ => rfl, fun _ => rfl, nofun, nofun, fun _ => rfl, nofun⟩
  | callNz _ | callZ _ | callNc _ | callC _ =>
    rcases callIf_effect h with ⟨m, rfl⟩ | rfl <;>
      exact ⟨fun _ => rfl, fun _ => rfl, nofun, nofun, fun _ => rfl, nofun⟩
  | jr _ | jrNz _ | jrZ _ | jrNc _ | jrC _ =>
    rcases relativeJump_effect h with rfl | rfl <;>
      exact ⟨fun _ => rfl, fun _ => rfl, fun _ => rfl, fun _ => rfl, fun _ => rfl, nofun⟩
  | jp _ =>
    cases h
    exact ⟨fun _ => rfl, fun _ => rfl, fun _ => rfl, fun _ => rfl, fun _ => rfl, nofun⟩
  | nop =>
    cases h
    exact .of_registers rfl rfl rfl rfl rfl
  | cpD8 _ =>
    cases h
    exact ⟨nofun, nofun, fun _ => rfl, fun _ => rfl, fun _ => rfl, fun _ => rfl⟩
  | bit7H =>
    cases h
    exact ⟨nofun, fun _ => rfl, fun _ => rfl, fun _ => rfl, fun _ => rfl, fun _ => rfl⟩
  | di | ei =>
    cases h
    exact ⟨fun _ => rfl, fun _ => rfl, fun _ => rfl, fun _ => rfl, nofun, fun _ => rfl⟩
  | _ => cases h

/-- Settles O53, by the frame of every instruction that completes. -/
theorem onlyListedInstructionsWriteFlagsSpMemory : Obligations.OnlyListedInstructionsWriteFlagsSpMemory := by
  intro i s t h
  have hframe := exec_frame h
  obtain ⟨⟨-, -, -, hpar⟩, -⟩ := exec_kept h
  exact ⟨hframe.flags, hframe.carry, hframe.sp, fun hlist => s.peek_congr t (hframe.mem hlist) hpar⟩

/-- Settles O54: PC advances by the size, which is the length of the encoding and at least 1. -/
theorem sequentialInstructionsAdvanceBySize : Obligations.SequentialInstructionsAdvanceBySize := by
  intro i s t h hseq
  obtain ⟨hlength, hpos, -⟩ := encodeSize i
  refine ⟨?_, List.ne_nil_of_length_pos (by omega), hlength.symm⟩
  rw [(exec_frame h).pc hseq, BitVec.toNat_add, BitVec.toNat_ofNat, Nat.add_mod_mod]

/-! ## When PC stays -/

theorem pc_add_ne_self (pc : Word) {n : Nat} (hpos : 1 ≤ n) (hle : n ≤ 3) : pc + BitVec.ofNat 16 n ≠ pc := by
  intro heq
  have := congrArg BitVec.toNat heq
  rw [BitVec.toNat_add, BitVec.toNat_ofNat] at this
  omega

/-- The offset that leads back to the jump itself is -2. -/
theorem off_of_pc_unmoved {pc : Word} {off : Byte} (h : pc + 2 + sext16 off = pc) : off = 0xFE := by
  have hoff : sext16 off = -2 := by
    rw [add_assoc, add_eq_left] at h
    exact (neg_eq_of_add_eq_zero_right h).symm
  have hsigned : off.toInt = -2 := by
    rw [← BitVec.toInt_signExtend_of_le (by decide : 8 ≤ 16)]
    exact congrArg BitVec.toInt hoff
  exact BitVec.eq_of_toInt_eq hsigned

theorem relativeJump_unmoved {cond : Bool} {off : Byte} {s t : State} (h : relativeJump cond off s = .next t)
    (hpc : t.pc = s.pc) : off = 0xFE := by
  rcases relativeJump_effect h with rfl | rfl
  · exact off_of_pc_unmoved hpc
  · exact absurd hpc (pc_add_ne_self s.pc (n := 2) (by decide) (by decide))

theorem callIf_unmoved {cond : Bool} {target : Word} {s t : State} (h : callIf cond target s = .next t)
    (hpc : t.pc = s.pc) : target = s.pc := by
  rcases callIf_effect h with ⟨m, rfl⟩ | rfl
  · exact hpc
  · exact absurd hpc (pc_add_ne_self s.pc (n := 3) (by decide) (by decide))

/-- Settles O47: an instruction that transfers no control advances PC by 1 to 3, and so does a transfer that is not taken; a
taken one leaves PC where it was only if its target is there. -/
theorem onlyTransfersCanLeavePcUnchanged : Obligations.OnlyTransfersCanLeavePcUnchanged := by
  intro s t i h hpc
  cases hseq : i.transfersControl with
  | false =>
    obtain ⟨-, hpos, hle⟩ := encodeSize i
    exact absurd (((exec_frame h).pc hseq).symm.trans hpc) (pc_add_ne_self s.pc hpos hle)
  | true =>
    cases i with
    | jr off | jrNz off | jrZ off | jrNc off | jrC off =>
      obtain rfl := relativeJump_unmoved h hpc
      simp
    | callNz a | callZ a | callNc a | callC a =>
      obtain rfl := callIf_unmoved h hpc
      simp
    | call a =>
      rw [exec_call] at h
      obtain ⟨m, rfl⟩ := pushThen_effect h
      obtain rfl : a = s.pc := hpc
      simp
    | jp a =>
      cases h
      obtain rfl : a = s.pc := hpc
      simp
    | ret | reti =>
      simp only [exec_ret, exec_reti] at h
      obtain ⟨w, hw, rfl⟩ := popThen_next h
      obtain rfl : w = s.pc := hpc
      simp [hw]
    | _ => cases hseq

/-! ## IME is read by nothing (R30) -/

/-- The state with another IME. -/
def State.withIme (s : State) (x : Bool) : State := { s with ime := x }

/-- An answer with another IME in its next state. -/
def withImeAfter (x : Bool) : Answer → Answer
  | .next t => .next (t.withIme x)
  | r => r

theorem State.memRead_withIme (s : State) (x : Bool) (addr : Nat) : (s.withIme x).memRead addr = s.memRead addr :=
  s.memRead_congr (s.withIme x) rfl rfl rfl addr

theorem State.memWrite_withIme (s : State) (x : Bool) (addr : Nat) (v : Byte) :
    (s.withIme x).memWrite addr v = (s.memWrite addr v).map (·.withIme x) := by
  by_cases hp : Config.memSize ≤ addr
  · rw [State.memWrite_past _ addr v hp, State.memWrite_past _ addr v hp]
    rfl
  by_cases hw : inWindow addr
  · rw [State.memWrite_port _ addr v hw, State.memWrite_port _ addr v hw]
    have hpar : (s.withIme x).par = s.par := rfl
    rw [hpar]
    cases portClass s.par addr <;> rfl
  · rw [State.memWrite_plain _ addr v (Nat.not_le.mp hp) hw, State.memWrite_plain _ addr v (Nat.not_le.mp hp) hw]
    rfl

theorem State.readOperand_withIme (s : State) (x : Bool) (src : Operand8) :
    (s.withIme x).readOperand src = s.readOperand src := by
  cases src with
  | reg r => cases r <;> rfl
  | hlInd => exact s.memRead_withIme x s.hl.toNat

theorem State.writeOperand_withIme (s : State) (x : Bool) (dst : Operand8) (v : Byte) :
    (s.withIme x).writeOperand dst v = (s.writeOperand dst v).map (·.withIme x) := by
  cases dst with
  | reg r => cases r <;> rfl
  | hlInd => exact s.memWrite_withIme x s.hl.toNat v

/-- A push whose low byte is stored goes on to store the high byte. -/
theorem State.push16_of_low {s u : State} {w : Word}
    (hlo : { s with sp := s.sp - 2 }.memWrite (s.sp - 2).toNat (loByte w) = .ok u) :
    s.push16 w = u.memWrite ((s.sp - 2).toNat + 1) (hiByte w) := by
  simp only [State.push16, hlo]

theorem State.push16_withIme (s : State) (x : Bool) (w : Word) :
    (s.withIme x).push16 w = (s.push16 w).map (·.withIme x) := by
  have hlow := { s with sp := s.sp - 2 }.memWrite_withIme x (s.sp - 2).toNat (loByte w)
  cases hlo : { s with sp := s.sp - 2 }.memWrite (s.sp - 2).toNat (loByte w) with
  | error e =>
    rw [hlo] at hlow
    rw [State.push16_low_error hlo, State.push16_low_error hlow]
    rfl
  | ok u =>
    rw [hlo] at hlow
    rw [State.push16_of_low hlo, State.push16_of_low hlow]
    exact u.memWrite_withIme x _ _

theorem State.top16_withIme (s : State) (x : Bool) : (s.withIme x).top16 = s.top16 := by
  have hread (addr : Nat) := s.memRead_withIme x addr
  cases hlo : s.memRead s.sp.toNat with
  | error e => rw [State.top16_low_error hlo, State.top16_low_error ((hread _).trans hlo)]
  | ok lo =>
    cases hhi : s.memRead (s.sp.toNat + 1) with
    | error e =>
      rw [State.top16_high_error hlo hhi, State.top16_high_error ((hread _).trans hlo) ((hread _).trans hhi)]
    | ok hi => rw [State.top16_eq hlo hhi, State.top16_eq ((hread _).trans hlo) ((hread _).trans hhi)]

/-! The shapes of the meanings, where what follows the access does not look at IME. -/

theorem storeByte_withIme (s : State) (x : Bool) (addr : Word) (v : Byte) {after : State → State}
    (hafter : ∀ u : State, after (u.withIme x) = (after u).withIme x) :
    storeByte addr v after (s.withIme x) = withImeAfter x (storeByte addr v after s) := by
  rw [storeByte, storeByte, s.memWrite_withIme x]
  cases s.memWrite addr.toNat v with
  | error e => rfl
  | ok u => exact congrArg Host.Outcome.next (hafter u)

theorem loadByte_withIme (s : State) (x : Bool) (addr : Word) {after : Byte → State → State}
    (hafter : ∀ v, after v (s.withIme x) = (after v s).withIme x) :
    loadByte addr after (s.withIme x) = withImeAfter x (loadByte addr after s) := by
  rw [loadByte, loadByte, s.memRead_withIme x]
  cases s.memRead addr.toNat with
  | error e => rfl
  | ok v => exact congrArg Host.Outcome.next (hafter v)

theorem modify_withIme (s : State) (x : Bool) (dst : Operand8) (f : Byte → Byte) {after : Byte → Byte → State → State}
    (hafter : ∀ v r (u : State), after v r (u.withIme x) = (after v r u).withIme x) :
    (s.withIme x).modify dst f after = withImeAfter x (s.modify dst f after) := by
  rw [State.modify, State.modify, s.readOperand_withIme x]
  cases s.readOperand dst with
  | error e => rfl
  | ok v =>
    simp only [s.writeOperand_withIme x]
    cases s.writeOperand dst (f v) with
    | error e => rfl
    | ok u => exact congrArg Host.Outcome.next (hafter v (f v) u)

theorem aluRow_withIme (s : State) (x : Bool) (result : Byte → Byte → Bool → Byte) (flags : Byte → Byte → Flags)
    (writesA : Bool) (src : Operand8) :
    aluRow result flags writesA src (s.withIme x) = withImeAfter x (aluRow result flags writesA src s) := by
  rw [aluRow, aluRow, s.readOperand_withIme x]
  cases s.readOperand src <;> rfl

theorem pushThen_withIme (s : State) (x : Bool) (w : Word) {after : State → State}
    (hafter : ∀ u : State, after (u.withIme x) = (after u).withIme x) :
    pushThen w after (s.withIme x) = withImeAfter x (pushThen w after s) := by
  rw [pushThen, pushThen, s.push16_withIme x]
  cases s.push16 w with
  | error e => rfl
  | ok u => exact congrArg Host.Outcome.next (hafter u)

theorem popThen_withIme (s : State) (x : Bool) {dest : Word → State → State}
    (hdest : ∀ w, dest w (s.withIme x) = (dest w s).withIme x) :
    popThen dest (s.withIme x) = withImeAfter x (popThen dest s) := by
  rw [popThen, popThen, s.top16_withIme x]
  cases s.top16 with
  | error e => rfl
  | ok w => exact congrArg (Host.Outcome.next ∘ State.dropTop) (hdest w)

theorem callIf_withIme (s : State) (x : Bool) (cond : Bool) (target : Word) :
    callIf cond target (s.withIme x) = withImeAfter x (callIf cond target s) := by
  cases cond with
  | true => exact pushThen_withIme s x (s.pc + 3) fun _ => rfl
  | false => rfl

theorem relativeJump_withIme (s : State) (x : Bool) (cond : Bool) (off : Byte) :
    relativeJump cond off (s.withIme x) = withImeAfter x (relativeJump cond off s) := by
  cases cond <;> rfl

/-- An instruction that does not write IME runs alike whatever IME is, and leaves it as it was. -/
theorem exec_withIme {i : Instr} (h : i.writesIme = false) (s : State) (x : Bool) :
    exec i (s.withIme x) = withImeAfter x (exec i s) := by
  cases i with
  | ldBcA | ldDeA | ldHlIncA | ldHlDecA | ldHlD8 _ | ldhA8A _ | ldA16A _ =>
    simp only [exec_ldBcA, exec_ldDeA, exec_ldHlIncA, exec_ldHlDecA, exec_ldHlD8, exec_ldhA8A, exec_ldA16A]
    exact storeByte_withIme s x _ _ fun _ => rfl
  | ldHlR r => cases r <;> exact storeByte_withIme s x s.hl _ fun _ => rfl
  | ldABc | ldADe | ldAHlInc | ldAHlDec | ldhAA8 _ | ldAA16 _ =>
    simp only [exec_ldABc, exec_ldADe, exec_ldAHlInc, exec_ldAHlDec, exec_ldhAA8, exec_ldAA16]
    exact loadByte_withIme s x _ fun _ => rfl
  | ldRHl r =>
    rw [exec_ldRHl, exec_ldRHl]
    cases r <;> exact loadByte_withIme s x s.hl fun _ => rfl
  | incR _ | incHl | decR _ | decHl | rlcR _ | rlR _ | resBR _ _ | setBR _ _ =>
    simp only [exec_incR, exec_incHl, exec_decR, exec_decHl, exec_rlcR, exec_rlR, exec_resBR, exec_setBR]
    exact modify_withIme s x _ _ fun _ _ _ => rfl
  | addAR _ | adcAR _ | subR _ | sbcAR _ | andR _ | xorR _ | orR _ | cpR _ =>
    simp only [exec_addAR, exec_adcAR, exec_subR, exec_sbcAR, exec_andR, exec_xorR, exec_orR, exec_cpR]
    exact aluRow_withIme s x _ _ _ _
  | pushBc | pushDe | pushHl | pushAf | call _ =>
    simp only [exec_pushBc, exec_pushDe, exec_pushHl, exec_pushAf, exec_call]
    exact pushThen_withIme s x _ fun _ => rfl
  | callNz a | callZ a | callNc a | callC a => exact callIf_withIme s x _ a
  | popBc | popDe | popHl | popAf | ret =>
    simp only [exec_popBc, exec_popDe, exec_popHl, exec_popAf, exec_ret]
    exact popThen_withIme s x fun _ => rfl
  | jr off | jrNz off | jrZ off | jrNc off | jrC off => exact relativeJump_withIme s x _ off
  | ldRrD16 p _ | incRr p | decRr p => cases p <;> rfl
  | ldRR rd rs => cases rd <;> cases rs <;> rfl
  | ldRD8 rd _ => cases rd <;> rfl
  | di | ei | reti => cases h
  | _ => rfl

/-- DI, EI and RETI set IME, and so run alike to the same state, whatever IME was. -/
theorem exec_withIme_of_writesIme {i : Instr} (h : i.writesIme = true) (s : State) (x : Bool) :
    exec i (s.withIme x) = exec i s := by
  cases i with
  | di | ei => rfl
  | reti =>
    rw [exec_reti, exec_reti, popThen, popThen, s.top16_withIme x]
    cases s.top16 <;> rfl
  | _ => cases h

/-- Settles O52, by the frame of every instruction and its run on a state with another IME. -/
theorem imeIsWrittenByThreeAndReadByNone : Obligations.ImeIsWrittenByThreeAndReadByNone := by
  intro i s
  refine ⟨exec_di s, exec_ei s, fun t hreti => ?_, fun t h => (exec_frame h).ime,
    fun x => ⟨fun t h => ?_, fun e h => ?_⟩⟩
  · rw [exec_reti] at hreti
    obtain ⟨w, -, rfl⟩ := popThen_next hreti
    rfl
  · cases hime : i.writesIme with
    | true => exact ⟨t.ime, (exec_withIme_of_writesIme hime s x).trans h⟩
    | false =>
      have hrun := exec_withIme hime s x
      rw [h] at hrun
      exact ⟨x, hrun⟩
  · cases hime : i.writesIme with
    | true => exact (exec_withIme_of_writesIme hime s x).trans h
    | false =>
      have hrun := exec_withIme hime s x
      rw [h] at hrun
      exact hrun

end Sys2Proof.Machine

/-! PROOFS. Writes of MEM by address and port class, the bytes of MEM as data, and the operand accessor (spec/20_memory.md
R50 to R64, spec/10_state.md R21, R22, R25). -/

namespace Sys2Proof.Machine

/-! ## Which accesses succeed -/

/-- A write succeeds exactly at a writable address. -/
theorem State.memWrite_ok_iff (s : State) (addr : Nat) (v : Byte) : (∃ t, s.memWrite addr v = .ok t) ↔ s.Writable addr :=
  ⟨fun ⟨_, ht⟩ => (State.memWrite_ok ht).1, s.memWrite_of_writable addr v⟩

theorem exists_error_iff {ε α : Type} (r : Except ε α) : (∃ e, r = .error e) ↔ ¬ ∃ a, r = .ok a := by
  cases r <;> simp

theorem State.readable_of_not_inWindow {s : State} {addr : Nat} (hlt : addr < 0x10000) (hw : ¬ inWindow addr) :
    s.Readable addr :=
  ⟨hlt, fun hin => absurd hin hw⟩

theorem State.writable_of_not_inWindow {s : State} {addr : Nat} (hlt : addr < 0x10000) (hw : ¬ inWindow addr) :
    s.Writable addr :=
  ⟨hlt, fun hin => absurd hin hw⟩

theorem State.readable_port_iff {s : State} {addr : Nat} (hw : inWindow addr) :
    s.Readable addr ↔ portClass s.par addr ≠ .notBuilt ∧ portClass s.par addr ≠ .undocumented :=
  ⟨fun h => h.2 hw, fun h => ⟨Nat.not_le.mp (inWindow_lt hw), fun _ => h⟩⟩

theorem State.writable_port_iff {s : State} {addr : Nat} (hw : inWindow addr) :
    s.Writable addr ↔ portClass s.par addr ≠ .notBuilt ∧ portClass s.par addr ≠ .undocumented ∧
      portClass s.par addr ≠ .scanLine :=
  ⟨fun h => h.2 hw, fun h => ⟨Nat.not_le.mp (inWindow_lt hw), fun _ => h⟩⟩

/-- Settles O9, by everything a write that succeeds can do, and by the class of the address where it fails. -/
theorem memWriteChangesAtMostMem : Obligations.MemWriteChangesAtMostMem := by
  intro s addr v
  refine ⟨fun hwritable => ?_, fun hpast => s.memWrite_past addr v hpast, fun hw hclass => ?_, fun hw hclass => ?_⟩
  · obtain ⟨t, ht⟩ := s.memWrite_of_writable addr v hwritable
    obtain ⟨-, hmem, -, hstored⟩ := State.memWrite_ok ht
    exact ⟨t, ht, hmem, hstored⟩
  · rw [s.memWrite_port addr v hw, hclass]
  · rw [s.memWrite_port addr v hw]
    rcases hclass with hclass | hclass <;> rw [hclass]

/-- Settles O10: an access succeeds exactly at a readable, or a writable, address. -/
theorem accessesFailOnlyInTheWindow : Obligations.AccessesFailOnlyInTheWindow := by
  intro s addr v hle
  refine ⟨fun hout => ?_, fun hlo hhi => ⟨?_, ?_⟩⟩
  · have hw : ¬ inWindow addr := not_inWindow_iff.mpr (hout.imp Nat.lt_succ_of_le Nat.lt_of_succ_le)
    have hlt : addr < 0x10000 := Nat.lt_succ_of_le hle
    exact ⟨(s.memRead_ok_iff addr).mpr (State.readable_of_not_inWindow hlt hw),
      (s.memWrite_ok_iff addr v).mpr (State.writable_of_not_inWindow hlt hw)⟩
  · rw [exists_error_iff, s.memRead_ok_iff, State.readable_port_iff ⟨hlo, hhi⟩]
    tauto
  · rw [exists_error_iff, s.memWrite_ok_iff, State.writable_port_iff ⟨hlo, hhi⟩]
    tauto

/-! ## Canonical memories -/

/-- A canonical memory reads as `fill` below its first address. -/
theorem Memory.read_below {fill : Byte} {k : Nat} {v : Byte} {m : Memory} (h : Memory.wf fill ((k, v) :: m)) {addr : Nat}
    (haddr : addr ≤ k) : Memory.read fill m addr = fill := by
  obtain ⟨hrising, -⟩ := h
  obtain ⟨habove, -⟩ := List.pairwise_cons.mp hrising
  exact Memory.read_of_absent fill m addr fun c hc => (haddr.trans_lt (habove c hc)).ne'

theorem Memory.wf_tail {fill : Byte} {c : Host.Cell} {m : Memory} (h : Memory.wf fill (c :: m)) : Memory.wf fill m := by
  obtain ⟨hrising, hcells⟩ := h
  exact ⟨(List.pairwise_cons.mp hrising).2, fun d hd => hcells d (List.mem_cons_of_mem c hd)⟩

theorem Memory.read_head_ne_fill {fill : Byte} {k : Nat} {v : Byte} {m : Memory} (h : Memory.wf fill ((k, v) :: m)) :
    Memory.read fill ((k, v) :: m) k ≠ fill := by
  obtain ⟨-, hcells⟩ := h
  obtain ⟨hne, -⟩ := hcells (k, v) List.mem_cons_self
  rwa [Memory.read_cons, if_pos rfl]

/-- The first address of a canonical memory is the least that does not read as `fill`. -/
theorem Memory.head_le_of_read_ne_fill {fill : Byte} {k : Nat} {v : Byte} {m : Memory} (h : Memory.wf fill ((k, v) :: m))
    {addr : Nat} (hread : Memory.read fill ((k, v) :: m) addr ≠ fill) : k ≤ addr := by
  by_contra hlt
  have hne : k ≠ addr := by omega
  rw [Memory.read_cons, if_neg hne] at hread
  exact hread (Memory.read_below h (by omega))

/-- Two canonical memories that read the same are the same list: they have the same first cell, and their tails read the
same. -/
theorem Memory.ext_of_read {fill : Byte} {m m' : Memory} (h : Memory.wf fill m) (h' : Memory.wf fill m')
    (hread : ∀ addr, Memory.read fill m addr = Memory.read fill m' addr) : m = m' := by
  induction m generalizing m' with
  | nil =>
    cases m' with
    | nil => rfl
    | cons c' m' => exact absurd (hread c'.1).symm (Memory.read_head_ne_fill h')
  | cons c m ih =>
    obtain ⟨k, v⟩ := c
    cases m' with
    | nil => exact absurd (hread k) (Memory.read_head_ne_fill h)
    | cons c' m' =>
      obtain ⟨k', v'⟩ := c'
      have hkk' : k ≤ k' := Memory.head_le_of_read_ne_fill h (by rw [hread]; exact Memory.read_head_ne_fill h')
      have hk'k : k' ≤ k := Memory.head_le_of_read_ne_fill h' (by rw [← hread]; exact Memory.read_head_ne_fill h)
      obtain rfl : k = k' := Nat.le_antisymm hkk' hk'k
      have hcell := hread k
      rw [Memory.read_cons, Memory.read_cons, if_pos rfl, if_pos rfl] at hcell
      have htail (addr : Nat) : Memory.read fill m addr = Memory.read fill m' addr := by
        by_cases haddr : k = addr
        · rw [Memory.read_below h haddr.ge, Memory.read_below h' haddr.ge]
        · have hrest := hread addr
          rwa [Memory.read_cons, Memory.read_cons, if_neg haddr, if_neg haddr] at hrest
      rw [hcell, ih (Memory.wf_tail h) (Memory.wf_tail h') htail]

/-- Settles O12, by induction over the first memory. -/
theorem canonicalMemoriesWithEqualBytesAreEqual : Obligations.CanonicalMemoriesWithEqualBytesAreEqual :=
  fun _ _ _ => Memory.ext_of_read

/-- Two states with canonical memories that read the same are the same if their other fields are. -/
theorem State.eq_of_peek {s t : State} (hother : t = { s with mem := t.mem }) (hs : Memory.wf s.par.sentinel s.mem)
    (ht : Memory.wf s.par.sentinel t.mem) (hpeek : ∀ addr, t.peek addr = s.peek addr) : t = s := by
  have hpar : t.par = s.par := by rw [hother]
  have hmem : t.mem = s.mem := Memory.ext_of_read ht hs fun addr => by
    have := hpeek addr
    rwa [State.peek, State.peek, hpar] at this
  rw [hother, hmem]

/-- Settles O11: the stores on both sides of each equation leave canonical memories that read the same. -/
theorem storesAreSeenAndIndependent : Obligations.StoresAreSeenAndIndependent := by
  intro s addr other v w
  refine ⟨by rw [s.peek_poke, if_pos rfl], fun hne => by rw [s.peek_poke, if_neg hne], fun hwf haddr hother => ?_⟩
  have hpoke {m : Memory} (hm : Memory.wf s.par.sentinel m) {a : Nat} (ha : a < 0x10000) (b : Byte) :
      Memory.wf s.par.sentinel (Memory.write s.par.sentinel m a b) := Memory.wf_write _ m a b hm ha
  refine ⟨?_, ?_, fun hne => ?_⟩
  · refine State.eq_of_peek rfl hwf (hpoke hwf haddr _) fun a => ?_
    rw [s.peek_poke]
    split
    · next heq => rw [heq]
    · rfl
  · refine State.eq_of_peek rfl (hpoke hwf haddr _) (hpoke (hpoke hwf haddr _) haddr _) fun a => ?_
    rw [State.peek_poke, State.peek_poke, State.peek_poke]
    split <;> rfl
  · refine State.eq_of_peek rfl (hpoke (hpoke hwf hother _) haddr _) (hpoke (hpoke hwf haddr _) hother _) fun a => ?_
    rw [State.peek_poke, State.peek_poke, State.peek_poke, State.peek_poke]
    by_cases ha : a = other
    · rw [if_pos ha, if_neg (ha.trans_ne hne), if_pos ha]
    · rw [if_neg ha, if_neg ha]

/-! ## The operand accessor -/

theorem State.advance_zero (s : State) : s.advance 0 = s := by
  rw [State.advance, add_zero]

/-- Settles O15: a register written reads back and leaves the others, and the byte at HL is one access of MEM. -/
theorem operandAccessorIsRegisterOrByteAtHl : Obligations.OperandAccessorIsRegisterOrByteAtHl := by
  intro s r v
  have hwrite : ∃ t, s.writeOperand (.reg r) v = .ok t ∧ t.reg r = v ∧ (∀ q, q ≠ r → t.reg q = s.reg q) ∧
      t.flags = s.flags ∧ t.pc = s.pc ∧ s.SameBeyondRegisters t := by
    have heffect := s.setReg_advance_effect r v 0
    rw [State.advance_zero, add_zero] at heffect
    exact ⟨_, rfl, heffect⟩
  exact ⟨⟨rfl, rfl, rfl, rfl, rfl, rfl, rfl⟩, ⟨rfl, rfl, rfl, rfl, rfl, rfl, rfl⟩,
    ⟨rfl, rfl, rfl, rfl, rfl, rfl, rfl, rfl⟩, rfl, hwrite, rfl, rfl, (s.memRead_ok_iff _).symm, (s.memWrite_ok_iff _ v).symm⟩

end Sys2Proof.Machine

/-! PROOFS. The loads and stores (spec/40_moves_and_loads.md R124 to R134, spec/46_misc_fixed.md R225 to R228), and the increment
and decrement of a pair and of the byte at HL (spec/41_incdec.md R145, R146, R151, R152). -/

namespace Sys2Proof.Machine

/-! ## Addresses -/

theorem State.bc_toNat (s : State) : s.bc.toNat = s.b.toNat * 256 + s.c.toNat := cat_toNat s.b s.c
theorem State.de_toNat (s : State) : s.de.toNat = s.d.toNat * 256 + s.e.toNat := cat_toNat s.d s.e
theorem State.hl_toNat (s : State) : s.hl.toNat = s.h.toNat * 256 + s.l.toNat := cat_toNat s.h s.l

theorem highPage_toNat (n : Byte) : (highPage n).toNat = 0xFF00 + n.toNat := by
  have hn := n.isLt
  rw [highPage, BitVec.toNat_add, zext16, BitVec.zeroExtend, BitVec.toNat_setWidth, Config.highPageBase]
  change (0xFF00 + n.toNat % 65536) % 65536 = _
  omega

/-! ## One byte loaded -/

/-- A load of A at its address. -/
theorem loadByte_a_effect (s : State) (addr : Word) (n : Word) :
    (∀ e, s.memRead addr.toNat = .error e → loadByte addr (fun v t => (t.setReg .a v).advance n) s = .fault e) ∧
    (s.Readable addr.toNat → ∃ v, s.memRead addr.toNat = .ok v ∧
      loadByte addr (fun v t => (t.setReg .a v).advance n) s = .next { s with a := v, pc := s.pc + n }) := by
  refine ⟨fun e he => loadByte_error he, fun hread => ?_⟩
  obtain ⟨v, hv⟩ := (s.memRead_ok_iff addr.toNat).mpr hread
  exact ⟨v, hv, loadByte_eq hv⟩

/-- Settles O20: each is a load of A at its address. -/
theorem accumulatorLoadsReadTheirAddress : Obligations.AccumulatorLoadsReadTheirAddress := by
  rintro s n a i addr size (⟨rfl, rfl, rfl⟩ | ⟨rfl, rfl, rfl⟩ | ⟨rfl, rfl, rfl⟩ | ⟨rfl, rfl, rfl⟩)
  · rw [exec_ldABc, ← s.bc_toNat]
    exact loadByte_a_effect s s.bc 1
  · rw [exec_ldADe, ← s.de_toNat]
    exact loadByte_a_effect s s.de 1
  · rw [exec_ldhAA8, ← highPage_toNat]
    exact loadByte_a_effect s (highPage n) 2
  · rw [exec_ldAA16]
    exact loadByte_a_effect s a 3

/-- Settles O21: each is a store of one byte at its address. -/
theorem storesWriteOneByteAtTheirAddress : Obligations.StoresWriteOneByteAtTheirAddress := by
  rintro s n a i addr v size (⟨rfl, rfl, rfl, rfl⟩ | ⟨rfl, rfl, rfl, rfl⟩ | ⟨rfl, rfl, rfl, rfl⟩ |
    ⟨rfl, rfl, rfl, rfl⟩ | ⟨rfl, rfl, rfl, rfl⟩)
  · rw [exec_ldBcA, ← s.bc_toNat]
    exact ⟨fun e => storeByte_error, storeByte_advance_effect s s.bc s.a 1⟩
  · rw [exec_ldDeA, ← s.de_toNat]
    exact ⟨fun e => storeByte_error, storeByte_advance_effect s s.de s.a 1⟩
  · rw [exec_ldHlD8, ← s.hl_toNat]
    exact ⟨fun e => storeByte_error, storeByte_advance_effect s s.hl v 2⟩
  · rw [exec_ldhA8A, ← highPage_toNat]
    exact ⟨fun e => storeByte_error, storeByte_advance_effect s (highPage n) s.a 2⟩
  · rw [exec_ldA16A]
    exact ⟨fun e => storeByte_error, storeByte_advance_effect s a s.a 3⟩

/-- Settles O19: the immediate loads write one register, or the two halves of a pair, and PC. -/
theorem immediateLoadsWriteTheirRegister : Obligations.ImmediateLoadsWriteTheirRegister := by
  intro s rd n w
  exact ⟨⟨_, exec_ldRD8 rd n s, s.setReg_advance_effect rd n 2⟩, exec_ldRrD16 .bc w s, exec_ldRrD16 .de w s,
    exec_ldRrD16 .hl w s, exec_ldRrD16 .sp w s⟩

/-! ## The forms (HL+) and (HL-) -/

/-- A word moved by one up or down, by its value. -/
theorem word_eq_add_one {w w' : Word} (h : w'.toNat = (w.toNat + 1) % 65536) : w' = w + 1 :=
  BitVec.eq_of_toNat_eq (h.trans (BitVec.toNat_add w 1).symm)

theorem word_eq_sub_one {w w' : Word} (h : w'.toNat = (w.toNat + 65535) % 65536) : w' = w - 1 :=
  BitVec.eq_of_toNat_eq (h.trans (by rw [BitVec.toNat_sub, Nat.add_comm]; rfl))

/-- A store of A at the old HL, after which HL takes a new value computed from the old. -/
theorem storeByte_moves_hl (s : State) (move : Word → Word) :
    (∀ e, s.memWrite s.hl.toNat s.a = .error e →
      storeByte s.hl s.a (fun t => (t.setHl (move t.hl)).advance 1) s = .fault e) ∧
    (s.Writable s.hl.toNat → ∃ t, storeByte s.hl s.a (fun t => (t.setHl (move t.hl)).advance 1) s = .next t ∧
      s.StoredByte t s.hl.toNat s.a ∧ t.hl = move s.hl ∧
      t = { s with h := t.h, l := t.l, mem := t.mem, pc := s.pc + 1 }) := by
  refine ⟨fun e he => storeByte_error he, fun hwrite => ?_⟩
  obtain ⟨u, hu⟩ := s.memWrite_of_writable s.hl.toNat s.a hwrite
  obtain ⟨-, -, -, hstored⟩ := State.memWrite_ok hu
  obtain ⟨m, rfl⟩ := State.memWrite_changes_mem hu
  exact ⟨_, storeByte_eq hu, hstored, s.hl_setHl (move s.hl), rfl⟩

/-- A load of A at the old HL, after which HL takes a new value computed from the old. -/
theorem loadByte_moves_hl (s : State) (move : Word → Word) :
    (∀ e, s.memRead s.hl.toNat = .error e →
      loadByte s.hl (fun v t => ((t.setReg .a v).setHl (move t.hl)).advance 1) s = .fault e) ∧
    (s.Readable s.hl.toNat → ∃ v t, s.memRead s.hl.toNat = .ok v ∧
      loadByte s.hl (fun v t => ((t.setReg .a v).setHl (move t.hl)).advance 1) s = .next t ∧ t.hl = move s.hl ∧
      t = { s with a := v, h := t.h, l := t.l, pc := s.pc + 1 }) := by
  refine ⟨fun e he => loadByte_error he, fun hread => ?_⟩
  obtain ⟨v, hv⟩ := (s.memRead_ok_iff s.hl.toNat).mpr hread
  exact ⟨v, _, hv, loadByte_eq hv, s.hl_setHl (move s.hl), rfl⟩

/-- Settles O22: each is a transfer at the old HL, after which HL moves by one. -/
theorem indexedFormsMoveHlAfterTheTransfer : Obligations.IndexedFormsMoveHlAfterTheTransfer := by
  intro s i hl'
  constructor
  · rintro (⟨rfl, hmove⟩ | ⟨rfl, hmove⟩)
    · rw [word_eq_add_one hmove, exec_ldHlIncA]
      exact storeByte_moves_hl s (· + 1)
    · rw [word_eq_sub_one hmove, exec_ldHlDecA]
      exact storeByte_moves_hl s (· - 1)
  · rintro (⟨rfl, hmove⟩ | ⟨rfl, hmove⟩)
    · rw [word_eq_add_one hmove, exec_ldAHlInc]
      exact loadByte_moves_hl s (· + 1)
    · rw [word_eq_sub_one hmove, exec_ldAHlDec]
      exact loadByte_moves_hl s (· - 1)

/-! ## Pairs -/

theorem State.pair_setPair_same (s : State) (p : Pair) (w : Word) : (s.setPair p w).pair p = w := by
  cases p with
  | bc => exact s.bc_setBc w
  | de => exact s.de_setDe w
  | hl => exact s.hl_setHl w
  | sp => rfl

theorem State.pair_setPair_other (s : State) {p q : Pair} (w : Word) (h : q ≠ p) : (s.setPair p w).pair q = s.pair q := by
  cases p with
  | bc =>
    cases q with
    | bc => exact absurd rfl h
    | de | hl | sp => rfl
  | de =>
    cases q with
    | de => exact absurd rfl h
    | bc | hl | sp => rfl
  | hl =>
    cases q with
    | hl => exact absurd rfl h
    | bc | de | sp => rfl
  | sp =>
    cases q with
    | sp => exact absurd rfl h
    | bc | de | hl => rfl

/-- A write of a pair and the advance of PC touch the registers, SP and PC alone. -/
theorem State.setPair_advance_frame (s : State) (p : Pair) (w n : Word) :
    (s.setPair p w).advance n = { s with
      b := (s.setPair p w).b, c := (s.setPair p w).c, d := (s.setPair p w).d, e := (s.setPair p w).e
      h := (s.setPair p w).h, l := (s.setPair p w).l, sp := (s.setPair p w).sp, pc := s.pc + n } := by
  cases p <;> rfl

theorem State.pair_advance (s : State) (p : Pair) (n : Word) : (s.advance n).pair p = s.pair p := by
  cases p <;> rfl

/-- Settles O23: each writes its pair, moved by one, and advances PC. -/
theorem pairIncrementAndDecrementWrap : Obligations.PairIncrementAndDecrementWrap := by
  intro s p
  refine ⟨_, _, exec_incRr p s, ?_, exec_decRr p s, ?_, fun q hq => ⟨?_, ?_⟩, s.setPair_advance_frame p _ 1,
    s.setPair_advance_frame p _ 1⟩
  · rw [State.pair_advance, State.pair_setPair_same, BitVec.toNat_add]
    rfl
  · rw [State.pair_advance, State.pair_setPair_same, BitVec.toNat_sub, Nat.add_comm]
    rfl
  · rw [State.pair_advance, s.pair_setPair_other _ hq]
  · rw [State.pair_advance, s.pair_setPair_other _ hq]

/-! ## The byte at HL changed in place -/

/-- A read-modify-write of the byte at a writable HL: it completes, and the new byte is stored before anything else. -/
theorem State.modify_hl_of_writable {s : State} (h : s.Writable s.hl.toNat) (f : Byte → Byte)
    (after : Byte → Byte → State → State) :
    ∃ v m, s.memRead s.hl.toNat = .ok v ∧ s.memWrite s.hl.toNat (f v) = .ok { s with mem := m } ∧
      s.modify .hlInd f after = .next (after v (f v) { s with mem := m }) ∧
      s.StoredByte { s with mem := m } s.hl.toNat (f v) := by
  obtain ⟨v, hv⟩ := (s.memRead_ok_iff s.hl.toNat).mpr (State.readable_of_writable h)
  obtain ⟨u, hu⟩ := s.memWrite_of_writable s.hl.toNat (f v) h
  obtain ⟨-, -, -, hstored⟩ := State.memWrite_ok hu
  obtain ⟨m, rfl⟩ := State.memWrite_changes_mem hu
  exact ⟨v, m, hv, hu, State.modify_eq (dst := .hlInd) hv hu, hstored⟩

/-! The flags of the result, in the values of the old byte. -/

theorem Flags.afterInc_add_one (f : Flags) (v : Byte) :
    f.afterInc (v + 1) = ⟨decide (v = 0xFF), false, decide (v.toNat % 16 = 15), f.c⟩ := by
  have hv := v.isLt
  have hsum : (v + 1).toNat = (v.toNat + 1) % 256 := BitVec.toNat_add v 1
  have hwrap : v = 0xFF ↔ v.toNat = 255 := BitVec.toNat_inj.symm
  rw [Flags.afterInc_eq, hsum]
  simp only [hwrap, Flags.mk.injEq, decide_eq_decide, true_and, and_true]
  omega

theorem Flags.afterDec_sub_one (f : Flags) (v : Byte) :
    f.afterDec (v - 1) = ⟨decide (v = 0x01), true, decide (v.toNat % 16 = 0), f.c⟩ := by
  have hv := v.isLt
  have hdiff : (v - 1).toNat = (255 + v.toNat) % 256 := BitVec.toNat_sub v 1
  have hone : v = 0x01 ↔ v.toNat = 1 := BitVec.toNat_inj.symm
  rw [Flags.afterDec_eq, hdiff]
  simp only [hone, Flags.mk.injEq, decide_eq_decide, true_and, and_true]
  omega

/-- Settles O25: both are a read-modify-write of the byte at HL, with `IncFlags` and `DecFlags` of the result. -/
theorem memoryIncrementAndDecrement : Obligations.MemoryIncrementAndDecrement := by
  intro s
  refine ⟨fun e he => ⟨?_, ?_⟩, fun v e hv => ⟨fun he => ?_, fun he => ?_⟩, fun hwrite => ?_⟩
  · exact (exec_incHl s).trans (State.modify_read_error (dst := .hlInd) he)
  · exact (exec_decHl s).trans (State.modify_read_error (dst := .hlInd) he)
  · exact (exec_incHl s).trans (State.modify_write_error (dst := .hlInd) hv he)
  · exact (exec_decHl s).trans (State.modify_write_error (dst := .hlInd) hv he)
  · obtain ⟨v, m, hv, -, hinc, hincStored⟩ := State.modify_hl_of_writable hwrite (· + 1)
      (fun _ r t => { t with flags := t.flags.afterInc r }.advance 1)
    obtain ⟨v', m', hv', -, hdec, hdecStored⟩ := State.modify_hl_of_writable hwrite (· - 1)
      (fun _ r t => { t with flags := t.flags.afterDec r }.advance 1)
    obtain rfl : v = v' := Except.ok.inj (hv.symm.trans hv')
    refine ⟨v, _, _, hv, (exec_incHl s).trans hinc, hincStored, ?_, (exec_decHl s).trans hdec, hdecStored, ?_⟩
    · rw [← Flags.afterInc_add_one]
      rfl
    · rw [← Flags.afterDec_sub_one]
      rfl

end Sys2Proof.Machine

/-! PROOFS. Addition, subtraction and comparison in the ALU row (spec/42_alu.md R156, R157, R160 to R163, R167, R168, R170). -/

namespace Sys2Proof.Machine

/-! ## The flag laws and the results, in the values of the bytes -/

theorem lowNibble_toNat (r : Byte) : (r &&& 0x0F).toNat = r.toNat % 16 := Nat.and_two_pow_sub_one_eq_mod r.toNat 4

theorem Flags.add_eq (a r : Byte) :
    Flags.add a r =
      ⟨decide (r.toNat = 0), false, decide (r.toNat % 16 < a.toNat % 16), decide (r.toNat < a.toNat)⟩ := by
  rw [Flags.add, byte_beq_zero]
  simp only [BitVec.lt_def, lowNibble_toNat]

theorem Flags.sub_eq (a r : Byte) :
    Flags.sub a r =
      ⟨decide (r.toNat = 0), true, decide (a.toNat % 16 < r.toNat % 16), decide (a.toNat < r.toNat)⟩ := by
  rw [Flags.sub, byte_beq_zero]
  simp only [gt_iff_lt, BitVec.lt_def, lowNibble_toNat]

theorem bitByte_toNat (b : Bool) : (bitByte b).toNat = b.toNat := by
  cases b <;> rfl

theorem adc_toNat (a v : Byte) (c : Bool) : (a + v + bitByte c).toNat = (a.toNat + v.toNat + c.toNat) % 256 := by
  rw [BitVec.toNat_add, BitVec.toNat_add, bitByte_toNat, Nat.mod_add_mod]

theorem sub_toNat (a v : Byte) : (a - v).toNat = (a.toNat + 256 - v.toNat) % 256 := by
  have hv := v.isLt
  rw [BitVec.toNat_sub]
  omega

theorem sbc_toNat (a v : Byte) (c : Bool) :
    (a - v - bitByte c).toNat = (a.toNat + 512 - v.toNat - c.toNat) % 256 := by
  have hv := v.isLt
  have hc := c.toNat_le
  rw [sub_toNat, sub_toNat, bitByte_toNat]
  omega

/-- The flags of a comparison say how the two bytes compare. -/
theorem Flags.sub_sub (a v : Byte) :
    Flags.sub a (a - v) =
      ⟨decide (a = v), true, decide (a.toNat % 16 < v.toNat % 16), decide (a.toNat < v.toNat)⟩ := by
  have ha := a.isLt
  have hv := v.isLt
  have heq : a = v ↔ a.toNat = v.toNat := BitVec.toNat_inj.symm
  rw [Flags.sub_eq, sub_toNat]
  simp only [heq, Flags.mk.injEq, decide_eq_decide, true_and]
  omega

/-! ## Each instruction on a readable operand -/

section
variable {s : State} {src : Operand8} {v : Byte} (hv : s.readOperand src = .ok v)
include hv

theorem exec_addAR_eq :
    exec (.addAR src) s = .next { s with a := s.a + v, pc := s.pc + 1, flags := Flags.add s.a (s.a + v) } :=
  (exec_addAR src s).trans (aluRow_eq hv)

theorem exec_adcAR_eq :
    exec (.adcAR src) s = .next { s with
      a := s.a + v + bitByte s.flags.c, pc := s.pc + 1, flags := Flags.add s.a (s.a + v + bitByte s.flags.c) } :=
  (exec_adcAR src s).trans (aluRow_eq hv)

theorem exec_subR_eq :
    exec (.subR src) s = .next { s with a := s.a - v, pc := s.pc + 1, flags := Flags.sub s.a (s.a - v) } :=
  (exec_subR src s).trans (aluRow_eq hv)

theorem exec_sbcAR_eq :
    exec (.sbcAR src) s = .next { s with
      a := s.a - v - bitByte s.flags.c, pc := s.pc + 1, flags := Flags.sub s.a (s.a - v - bitByte s.flags.c) } :=
  (exec_sbcAR src s).trans (aluRow_eq hv)

theorem exec_cpR_eq : exec (.cpR src) s = .next { s with pc := s.pc + 1, flags := Flags.sub s.a (s.a - v) } :=
  (exec_cpR src s).trans (aluRow_eq hv)

end

/-! ## The obligations -/

/-- Settles O26: the wrapped sum, and `AddFlags` in the values of the result and the old accumulator. -/
theorem addAndAdcResultAndFlags : Obligations.AddAndAdcResultAndFlags := by
  intro s src
  refine ⟨fun e he => ⟨?_, ?_⟩, fun v hv => ⟨⟨_, BitVec.toNat_add s.a v, ?_⟩, ⟨_, adc_toNat s.a v s.flags.c, ?_⟩⟩⟩
  · exact (exec_addAR src s).trans (aluRow_error he)
  · exact (exec_adcAR src s).trans (aluRow_error he)
  · rw [exec_addAR_eq hv, Flags.add_eq]
  · rw [exec_adcAR_eq hv, Flags.add_eq]

/-- Settles O27: the wrapped difference, and `SubFlags` in the values of the result and the old accumulator. -/
theorem subAndSbcResultAndFlags : Obligations.SubAndSbcResultAndFlags := by
  intro s src
  refine ⟨fun e he => ⟨?_, ?_⟩, fun v hv => ⟨⟨_, sub_toNat s.a v, ?_⟩, ⟨_, sbc_toNat s.a v s.flags.c, ?_⟩⟩⟩
  · exact (exec_subR src s).trans (aluRow_error he)
  · exact (exec_sbcAR src s).trans (aluRow_error he)
  · rw [exec_subR_eq hv, Flags.sub_eq]
  · rw [exec_sbcAR_eq hv, Flags.sub_eq]

/-- Settles O29: the flags are those of the subtraction, which compare the two bytes. -/
theorem compareSetsFlagsOnly : Obligations.CompareSetsFlagsOnly := by
  intro s src n
  refine ⟨fun e he => ?_, fun v hv => ?_, ?_⟩
  · exact (exec_cpR src s).trans (aluRow_error he)
  · rw [exec_cpR_eq hv, Flags.sub_sub]
  · rw [exec_cpD8, Flags.sub_sub]
    rfl

/-! ## The carry the rule gives and the true carry (R170) -/

theorem add_carry_iff (a v : Byte) :
    ((Flags.add a (a + v)).c = true ↔ 256 ≤ a.toNat + v.toNat) ∧
      ((Flags.add a (a + v)).h = true ↔ 16 ≤ a.toNat % 16 + v.toNat % 16) := by
  have ha := a.isLt
  have hv := v.isLt
  rw [Flags.add_eq, BitVec.toNat_add, decide_eq_true_iff, decide_eq_true_iff]
  omega

theorem sub_carry_iff (a v : Byte) :
    ((Flags.sub a (a - v)).c = true ↔ a.toNat < v.toNat) ∧
      ((Flags.sub a (a - v)).h = true ↔ a.toNat % 16 < v.toNat % 16) := by
  rw [Flags.sub_sub, decide_eq_true_iff, decide_eq_true_iff]
  exact ⟨.rfl, .rfl⟩

theorem adc_carry_iff (a v : Byte) (c : Bool) :
    ((Flags.add a (a + v + bitByte c)).c = true ↔ 256 ≤ a.toNat + v.toNat + c.toNat ∧ ¬ (c = true ∧ v = 0xFF)) ∧
      ((Flags.add a (a + v + bitByte c)).h = true ↔
        16 ≤ a.toNat % 16 + v.toNat % 16 + c.toNat ∧ ¬ (c = true ∧ v.toNat % 16 = 15)) := by
  have ha := a.isLt
  have hv := v.isLt
  have hc := c.toNat_le
  have hcarry : c = true ↔ c.toNat = 1 := by cases c <;> decide
  have hff : v = 0xFF ↔ v.toNat = 255 := BitVec.toNat_inj.symm
  rw [Flags.add_eq, adc_toNat, decide_eq_true_iff, decide_eq_true_iff, hff, hcarry]
  omega

theorem sbc_carry_iff (a v : Byte) (c : Bool) :
    ((Flags.sub a (a - v - bitByte c)).c = true ↔ a.toNat < v.toNat + c.toNat ∧ ¬ (c = true ∧ v = 0xFF)) ∧
      ((Flags.sub a (a - v - bitByte c)).h = true ↔
        a.toNat % 16 < v.toNat % 16 + c.toNat ∧ ¬ (c = true ∧ v.toNat % 16 = 15)) := by
  have ha := a.isLt
  have hv := v.isLt
  have hc := c.toNat_le
  have hcarry : c = true ↔ c.toNat = 1 := by cases c <;> decide
  have hff : v = 0xFF ↔ v.toNat = 255 := BitVec.toNat_inj.symm
  rw [Flags.sub_eq, sbc_toNat, decide_eq_true_iff, decide_eq_true_iff, hff, hcarry]
  omega

/-- Settles O30, by the arithmetic of each flag law: the wrapped result is below, or above, the old accumulator exactly when
the true sum, or difference, wrapped, unless the operand and the carry-in together are a whole turn. -/
theorem carryRuleDivergesExactlyAtFF : Obligations.CarryRuleDivergesExactlyAtFF := by
  intro s t src v hv
  refine ⟨fun h => ?_, fun h => ?_, fun h => ?_, fun h => ?_⟩
  · rw [exec_addAR_eq hv] at h
    cases h
    exact add_carry_iff s.a v
  · rw [exec_subR_eq hv] at h
    cases h
    exact sub_carry_iff s.a v
  · rw [exec_adcAR_eq hv] at h
    cases h
    exact adc_carry_iff s.a v s.flags.c
  · rw [exec_sbcAR_eq hv] at h
    cases h
    exact sbc_carry_iff s.a v s.flags.c

end Sys2Proof.Machine

/-! PROOFS. The stack, calls and returns (spec/43_stack_call_return.md R175 to R188). -/

namespace Sys2Proof.Machine

/-! ## A push -/

section
variable {s u t : State} {addr : Nat} {v : Byte}

/-- A byte written where writes store it is read there. -/
theorem State.peek_of_memWrite_same (h : s.memWrite addr v = .ok t) (htakes : s.TakesByte addr) : t.peek addr = v := by
  obtain ⟨-, -, -, hsame, -⟩ := State.memWrite_ok h
  exact hsame htakes.2

/-- A write to an address that is no single-purpose port leaves every other byte. -/
theorem State.peek_of_memWrite_other (h : s.memWrite addr v = .ok t) (hplain : s.PlainTarget addr) {other : Nat}
    (hne : other ≠ addr) : t.peek other = s.peek other := by
  obtain ⟨-, -, -, -, -, hother, -⟩ := State.memWrite_ok h
  exact hother hplain other hne

end

theorem State.plainTarget_of_takesByte {s : State} {addr : Nat} (h : s.TakesByte addr) : s.PlainTarget addr := by
  intro hw p
  rw [h.2 hw]
  nofun

theorem State.takesByte_of_not_inWindow (s : State) {addr : Nat} (hlt : addr < 0x10000) (hw : ¬ inWindow addr) :
    s.TakesByte addr :=
  ⟨hlt, fun hin => absurd hin hw⟩

/-- What a push that completes has done to the bytes of MEM. -/
theorem State.push16_bytes {s t : State} {w : Word} (h : s.push16 w = .ok t) :
    (s.TakesByte (s.sp - 2).toNat → s.TakesByte ((s.sp - 2).toNat + 1) →
      t.peek (s.sp - 2).toNat = loByte w ∧ t.peek ((s.sp - 2).toNat + 1) = hiByte w) ∧
    (s.PlainTarget (s.sp - 2).toNat → s.PlainTarget ((s.sp - 2).toNat + 1) →
      ∀ addr, addr ≠ (s.sp - 2).toNat → addr ≠ (s.sp - 2).toNat + 1 → t.peek addr = s.peek addr) := by
  obtain ⟨u, hlow, hhigh, -, -⟩ := State.push16_ok h
  obtain ⟨m, rfl⟩ := State.memWrite_changes_mem hlow
  refine ⟨fun hlo hhi => ⟨?_, State.peek_of_memWrite_same hhigh hhi⟩, fun hlo hhi addr hne hne' => ?_⟩
  · rw [State.peek_of_memWrite_other hhigh (State.plainTarget_of_takesByte (s := s) hhi) (by omega)]
    exact State.peek_of_memWrite_same hlow hlo
  · rw [State.peek_of_memWrite_other hhigh hhi hne']
    exact State.peek_of_memWrite_other hlow hlo hne

/-- Everything a push of a word and what follows it can answer: the error of the first write, that of the second after it, or
the pushed state. -/
theorem pushThen_spec (s : State) (w : Word) (after : State → State) :
    (∀ e, { s with sp := s.sp - 2 }.memWrite (s.sp - 2).toNat (loByte w) = .error e → pushThen w after s = .fault e) ∧
    (∀ u e, { s with sp := s.sp - 2 }.memWrite (s.sp - 2).toNat (loByte w) = .ok u →
      u.memWrite ((s.sp - 2).toNat + 1) (hiByte w) = .error e → pushThen w after s = .fault e) ∧
    (s.Pushable → ∃ m, pushThen w after s = .next (after { s with sp := s.sp - 2, mem := m }) ∧
      s.push16 w = .ok { s with sp := s.sp - 2, mem := m }) := by
  refine ⟨fun e hlo => pushThen_error (State.push16_low_error hlo),
    fun u e hlo hhi => pushThen_error (State.push16_high_error hlo hhi), fun hpush => ?_⟩
  obtain ⟨u, hu⟩ := s.push16_of_pushable w hpush
  obtain ⟨m, rfl⟩ := State.push16_effect hu
  exact ⟨m, pushThen_eq hu, hu⟩

/-- Settles O31: each is a push of its pair's word, then the advance of PC. -/
theorem pushStoresLittleEndianBelowSp : Obligations.PushStoresLittleEndianBelowSp := by
  intro s i w hi
  have hexec : exec i s = pushThen w (fun t => t.advance 1) s := by
    rcases hi with ⟨rfl, rfl⟩ | ⟨rfl, rfl⟩ | ⟨rfl, rfl⟩ | ⟨rfl, rfl⟩
    · exact exec_pushBc s
    · exact exec_pushDe s
    · exact exec_pushHl s
    · exact exec_pushAf s
  obtain ⟨hlow, hhigh, hok⟩ := pushThen_spec s w (fun t => t.advance 1)
  rw [hexec]
  refine ⟨hlow, hhigh, fun hpush => ?_⟩
  obtain ⟨m, hnext, hpushed⟩ := hok hpush
  have hbytes := State.push16_bytes hpushed
  exact ⟨_, hnext, rfl, hbytes⟩

/-! ## Calls -/

/-- Settles O34: a taken call is a push of the address of the next instruction, then the jump. -/
theorem callsPushTheReturnAddress : Obligations.CallsPushTheReturnAddress := by
  intro s a i taken hi
  have hexec : exec i s = callIf taken a s := by
    rcases hi with ⟨rfl, rfl⟩ | ⟨rfl, rfl⟩ | ⟨rfl, rfl⟩ | ⟨rfl, rfl⟩ | ⟨rfl, rfl⟩
    · exact exec_call a s
    · exact exec_callNz a s
    · exact exec_callZ a s
    · exact exec_callNc a s
    · exact exec_callC a s
  obtain ⟨hlow, hhigh, hok⟩ := pushThen_spec s (s.pc + 3) (fun t => t.jumpTo a)
  rw [hexec]
  refine ⟨?_, ?_, ?_, ?_⟩ <;> rintro rfl
  · rfl
  · exact hlow
  · exact hhigh
  · intro hpush
    obtain ⟨m, hnext, hpushed⟩ := hok hpush
    obtain ⟨hbytes, hother⟩ := State.push16_bytes hpushed
    refine ⟨_, hnext, rfl, fun hlo hhi => ?_, hother⟩
    obtain ⟨hpeekLo, hpeekHi⟩ := hbytes hlo hhi
    have hword : (s.pc + 3).toNat = (s.pc.toNat + 3) % 65536 := BitVec.toNat_add s.pc 3
    calc _ = (loByte (s.pc + 3)).toNat + 256 * (hiByte (s.pc + 3)).toNat := by rw [← hpeekLo, ← hpeekHi]; rfl
      _ = (s.pc + 3).toNat := by rw [loByte_toNat, hiByte_toNat]; exact Nat.mod_add_div _ 256
      _ = (s.pc.toNat + 3) % 65536 := hword

/-! ## Pops and returns -/

/-- Everything a pop and what follows it can answer. -/
theorem popThen_spec (s : State) :
    (∀ e dest, s.memRead s.sp.toNat = .error e → popThen dest s = .fault e) ∧
    (∀ lo e dest, s.memRead s.sp.toNat = .ok lo → s.memRead (s.sp.toNat + 1) = .error e → popThen dest s = .fault e) ∧
    (s.Poppable → ∃ lo hi, s.memRead s.sp.toNat = .ok lo ∧ s.memRead (s.sp.toNat + 1) = .ok hi ∧
      ∀ dest, popThen dest s = .next (dest (cat hi lo) s).dropTop) := by
  refine ⟨fun e dest hlo => popThen_error (State.top16_low_error hlo),
    fun lo e dest hlo hhi => popThen_error (State.top16_high_error hlo hhi), fun ⟨hlow, hhigh⟩ => ?_⟩
  obtain ⟨lo, hlo⟩ := (s.memRead_ok_iff _).mpr hlow
  obtain ⟨hi, hhi⟩ := (s.memRead_ok_iff _).mpr hhigh
  exact ⟨lo, hi, hlo, hhi, fun dest => popThen_eq (State.top16_eq hlo hhi)⟩

/-- The instructions that pop. -/
theorem exec_pops {i : Instr} (hi : i ∈ [Instr.popBc, .popDe, .popHl, .popAf, .ret, .reti]) (s : State) :
    ∃ dest, exec i s = popThen dest s := by
  simp only [List.mem_cons, List.not_mem_nil, or_false] at hi
  rcases hi with rfl | rfl | rfl | rfl | rfl | rfl
  · exact ⟨_, exec_popBc s⟩
  · exact ⟨_, exec_popDe s⟩
  · exact ⟨_, exec_popHl s⟩
  · exact ⟨_, exec_popAf s⟩
  · exact ⟨_, exec_ret s⟩
  · exact ⟨_, exec_reti s⟩

/-- The error of a pop's first read, or of its second after it, is the answer. -/
theorem exec_pop_errors {i : Instr} (hi : i ∈ [Instr.popBc, .popDe, .popHl, .popAf, .ret, .reti]) (s : State) :
    (∀ e, s.memRead s.sp.toNat = .error e → exec i s = .fault e) ∧
    (∀ lo e, s.memRead s.sp.toNat = .ok lo → s.memRead (s.sp.toNat + 1) = .error e → exec i s = .fault e) := by
  obtain ⟨dest, hexec⟩ := exec_pops hi s
  obtain ⟨hlow, hhigh, -⟩ := popThen_spec s
  rw [hexec]
  exact ⟨fun e => hlow e dest, fun lo e => hhigh lo e dest⟩

/-- Settles O32: a pop is two reads, then the write of the pair and of SP. -/
theorem popLoadsLittleEndianAtSp : Obligations.PopLoadsLittleEndianAtSp := by
  intro s
  refine ⟨fun i hi => exec_pop_errors (List.mem_append_left [.ret, .reti] hi) s, fun hpop => ?_⟩
  obtain ⟨-, -, hok⟩ := popThen_spec s
  obtain ⟨lo, hi, hlo, hhi, hnext⟩ := hok hpop
  refine ⟨lo, hi, hlo, hhi, ?_, ?_, ?_, ?_⟩
  · rw [exec_popBc, hnext, State.setBc, hiByte_cat, loByte_cat]
    rfl
  · rw [exec_popDe, hnext, State.setDe, hiByte_cat, loByte_cat]
    rfl
  · rw [exec_popHl, hnext, State.setHl, hiByte_cat, loByte_cat]
    rfl
  · rw [exec_popAf, hnext, State.setAf, hiByte_cat, loByte_cat]
    rfl

/-- Settles O35: a return is a pop into PC. -/
theorem returnsPopIntoPc : Obligations.ReturnsPopIntoPc := by
  intro s
  refine ⟨fun i hi => exec_pop_errors (List.mem_append_right [.popBc, .popDe, .popHl, .popAf] hi) s, fun hpop => ?_⟩
  obtain ⟨-, -, hok⟩ := popThen_spec s
  obtain ⟨lo, hi, hlo, hhi, hnext⟩ := hok hpop
  exact ⟨lo, hi, hlo, hhi, (exec_ret s).trans (hnext _), (exec_reti s).trans (hnext _)⟩

/-! ## The end of MEM -/

/-- A push with SP = 1 stores its low byte at 0xFFFF and has no address for the high byte. -/
theorem State.push16_past_end {s : State} (hsp : s.sp = 0x0001) (w : Word) :
    s.push16 w = .error (.configurationError 0x10000 s.pc) := by
  have haddr : (s.sp - 2).toNat = 0xFFFF := by rw [hsp]; rfl
  have hlow : { s with sp := s.sp - 2 }.memWrite (s.sp - 2).toNat (loByte w) =
      .ok ({ s with sp := s.sp - 2 }.poke (s.sp - 2).toNat (loByte w)) := by
    rw [State.memWrite_outside_window] <;> omega
  rw [State.push16_high_error hlow (State.memWrite_past _ _ _ (by rw [haddr]; decide)), haddr]
  rfl

theorem State.top16_past_end {s : State} (hsp : s.sp = 0xFFFF) :
    s.top16 = .error (.configurationError 0x10000 s.pc) := by
  have haddr : s.sp.toNat = 0xFFFF := by rw [hsp]; rfl
  rw [State.top16_high_error (s.memRead_outside_window (by omega) (by omega)) (s.memRead_past _ (by rw [haddr]; decide)),
    haddr]

/-- Settles O33: the second byte's address is 0x10000, and a taken call is a push. -/
theorem stackAccessesPastTheEndAreConfigurationErrors : Obligations.StackAccessesPastTheEndAreConfigurationErrors := by
  intro s
  refine ⟨fun hsp i hi => ?_, fun hsp a => ?_, fun hsp i hi => ?_⟩
  · have hpush (w : Word) := pushThen_error (after := fun t => t.advance 1) (State.push16_past_end hsp w)
    simp only [List.mem_cons, List.not_mem_nil, or_false] at hi
    rcases hi with rfl | rfl | rfl | rfl
    · exact (exec_pushBc s).trans (hpush s.bc)
    · exact (exec_pushDe s).trans (hpush s.de)
    · exact (exec_pushHl s).trans (hpush s.hl)
    · exact (exec_pushAf s).trans (hpush s.af)
  · have hcall : callIf true a s = .fault (.configurationError 0x10000 s.pc) :=
      pushThen_error (State.push16_past_end hsp (s.pc + 3))
    refine ⟨hcall, fun hz => ?_, fun hz => ?_, fun hc => ?_, fun hc => ?_⟩
    · rw [exec_callNz, Flags.condNz, hz]
      exact hcall
    · rw [exec_callZ, Flags.condZ, hz]
      exact hcall
    · rw [exec_callNc, Flags.condNc, hc]
      exact hcall
    · rw [exec_callC, Flags.condC, hc]
      exact hcall
  · obtain ⟨dest, hexec⟩ := exec_pops hi s
    rw [hexec, popThen_error (State.top16_past_end hsp)]

/-! ## A call and its return -/

/-- Settles O36: the return reads back the two bytes the call has pushed. -/
theorem callThenReturnComesBack : Obligations.CallThenReturnComesBack := by
  intro s a hsp hlowWindow hhighWindow
  have hlowLt : (s.sp - 2).toNat < 0x10000 := (s.sp - 2).isLt
  have hhighLt : (s.sp - 2).toNat + 1 < 0x10000 := by
    have hdiff : (s.sp - 2).toNat = (65534 + s.sp.toNat) % 65536 := BitVec.toNat_sub s.sp 2
    omega
  obtain ⟨-, -, hok⟩ := pushThen_spec s (s.pc + 3) (fun t => t.jumpTo a)
  obtain ⟨m, hcall, hpushed⟩ := hok ⟨State.writable_of_not_inWindow hlowLt hlowWindow,
    State.writable_of_not_inWindow hhighLt hhighWindow⟩
  obtain ⟨hbytes, -⟩ := State.push16_bytes hpushed
  obtain ⟨hlo, hhi⟩ := hbytes (s.takesByte_of_not_inWindow hlowLt hlowWindow)
    (s.takesByte_of_not_inWindow hhighLt hhighWindow)
  have hreturn : ({ s with sp := s.sp - 2, mem := m }.jumpTo a).top16 = .ok (s.pc + 3) := by
    rw [← cat_hi_lo (s.pc + 3), ← hlo, ← hhi]
    exact State.top16_eq (State.memRead_plain _ _ hlowLt hlowWindow) (State.memRead_plain _ _ hhighLt hhighWindow)
  refine ⟨_, _, (exec_call a s).trans hcall, rfl, (exec_ret _).trans (popThen_eq hreturn), rfl, ?_, ?_⟩
  · exact sub_add_cancel s.sp 2
  · simp [State.dropTop, State.jumpTo]

end Sys2Proof.Machine

/-! PROOFS. NOP and the jumps (spec/44_jumps.md R195 to R202), and the built rows of the 0xCB sub-table
(spec/45_prefixed_cb.md R211 to R216). -/

namespace Sys2Proof.Machine

/-! ## Jumps -/

theorem sext16_toNat (off : Byte) : ((sext16 off).toNat : Int) = off.toInt % 65536 := by
  have hvalue : (sext16 off).toNat = (off.toInt % 65536).toNat := BitVec.toNat_ofInt off.toInt
  rw [hvalue]
  exact Int.toNat_of_nonneg (Int.emod_nonneg _ (by decide))

/-- The target of a relative jump in the values of PC and of the signed offset. -/
theorem jumpTarget_toNat (pc : Word) (off : Byte) :
    ((pc + 2 + sext16 off).toNat : Int) = ((pc.toNat : Int) + 2 + off.toInt) % 65536 := by
  have hoff := sext16_toNat off
  have hbase : (pc + 2).toNat = (pc.toNat + 2) % 65536 := BitVec.toNat_add pc 2
  rw [BitVec.toNat_add, hbase]
  omega

/-- Settles O37: the jumps that test no flag and those that do are one relative jump, taken or not. -/
theorem jumpsMovePcOnly : Obligations.JumpsMovePcOnly := by
  intro s off a
  refine ⟨exec_nop s, exec_jp a s, fun i taken hi => ?_⟩
  have hexec : exec i s = relativeJump taken off s := by
    rcases hi with ⟨rfl, rfl⟩ | ⟨rfl, rfl⟩ | ⟨rfl, rfl⟩ | ⟨rfl, rfl⟩ | ⟨rfl, rfl⟩
    · exact exec_jr off s
    · exact exec_jrNz off s
    · exact exec_jrZ off s
    · exact exec_jrNc off s
    · exact exec_jrC off s
  rw [hexec]
  cases taken with
  | false => exact ⟨_, rfl, rfl, fun _ => rfl, nofun⟩
  | true => exact ⟨_, rfl, rfl, nofun, fun _ => jumpTarget_toNat s.pc off⟩

/-! ## A byte shifted left with a bit entering at the bottom -/

theorem shiftIn_toNat (v : Byte) (c : Bool) : (v <<< 1 ||| bitByte c).toNat = (2 * v.toNat + c.toNat) % 256 := by
  have hdisjoint : v <<< 1 &&& bitByte c = 0#8 := by
    ext i hi
    cases i with
    | zero => simp
    | succ i => simp
  have hshift : (v <<< 1).toNat = 2 * v.toNat % 256 := by
    rw [BitVec.toNat_shiftLeft, Nat.shiftLeft_eq, Nat.mul_comm]
  rw [← BitVec.add_eq_or_of_and_eq_zero _ _ hdisjoint, BitVec.toNat_add, hshift, bitByte_toNat, Nat.mod_add_mod]

theorem bitSeven_eq (v : Byte) : v.getLsbD 7 = decide (128 ≤ v.toNat) := by
  rw [← BitVec.msb_eq_decide v, BitVec.msb_eq_getLsbD_last]

theorem bitSeven_toNat (v : Byte) : (v.getLsbD 7).toNat = v.toNat / 128 := by
  have hv := v.isLt
  rw [bitSeven_eq]
  by_cases hbit : 128 ≤ v.toNat
  · rw [decide_eq_true hbit]
    change 1 = _
    omega
  · rw [decide_eq_false hbit]
    change 0 = _
    omega

/-! ## Rotates -/

/-- What a rotate does after its write: the flags, of which three are drawn, and the advance of PC. -/
def afterRotate (v _r : Byte) (t : State) : State :=
  { t with flags := Flags.rotate t.draws v, draws := t.draws + 3 }.advance 2

theorem exec_rlcR_eq (src : Operand8) (s : State) :
    exec (.rlcR src) s = s.modify src (fun v => v <<< 1 ||| bitByte (v.getLsbD 7)) afterRotate := rfl

theorem exec_rlR_eq (src : Operand8) (s : State) :
    exec (.rlR src) s = s.modify src (fun v => v <<< 1 ||| bitByte s.flags.c) afterRotate := rfl

theorem afterRotate_reg (v r : Byte) (t : State) (q : Reg8) : (afterRotate v r t).reg q = t.reg q := by
  cases q <;> rfl

/-- A rotate of a register: it changes that register, the flags, PC and the count of draws alone. -/
theorem State.rotate_reg_effect (s : State) (r : Reg8) (f : Byte → Byte) :
    ∃ t, s.modify (.reg r) f afterRotate = .next t ∧ t.reg r = f (s.reg r) ∧ (∀ q, q ≠ r → t.reg q = s.reg q) ∧
      t.flags.c = (s.reg r).getLsbD 7 ∧ t.pc = s.pc + 2 ∧ t.sp = s.sp ∧ t.ime = s.ime ∧ t.draws = s.draws + 3 ∧
      s.SameSession t ∧ s.SameBytes t := by
  obtain ⟨hsession, -⟩ := s.kept_setReg r (f (s.reg r))
  refine ⟨afterRotate (s.reg r) (f (s.reg r)) (s.setReg r (f (s.reg r))), rfl, ?_, fun q hq => ?_, rfl, ?_, ?_, ?_, ?_,
    hsession, ?_⟩
  · rw [afterRotate_reg, s.reg_setReg_same]
  · rw [afterRotate_reg, s.reg_setReg_other r q _ hq]
  · exact congrArg (· + 2) (s.setReg_pc r _)
  · exact s.setReg_sp r _
  · exact s.setReg_ime r _
  · exact congrArg (· + 3) (s.setReg_draws r _)
  · exact s.peek_congr _ (s.setReg_mem r _) (s.setReg_par r _)

/-- Settles O38, by the value of the shifted byte and the frame of a rotate. -/
theorem registerRotatesMoveBitSevenToCarry : Obligations.RegisterRotatesMoveBitSevenToCarry := by
  intro s r
  obtain ⟨t, hrlc, htreg, htother, htc, htframe⟩ := s.rotate_reg_effect r fun v => v <<< 1 ||| bitByte (v.getLsbD 7)
  obtain ⟨u, hrl, hureg, huother, huc, huframe⟩ := s.rotate_reg_effect r fun v => v <<< 1 ||| bitByte s.flags.c
  refine ⟨t, u, hrlc, ?_, ?_, hrl, ?_, ?_, fun q hq => ⟨htother q hq, huother q hq⟩, fun x hx => ?_⟩
  · rw [htreg, shiftIn_toNat, bitSeven_toNat]
  · rw [htc, bitSeven_eq]
  · rw [hureg, shiftIn_toNat]
  · rw [huc, bitSeven_eq]
  · simp only [List.mem_cons, List.not_mem_nil, or_false] at hx
    rcases hx with rfl | rfl
    · exact htframe
    · exact huframe

/-- Settles O39: both are a read-modify-write of the byte at HL, with the byte a register rotate would give. -/
theorem memoryRotatesMoveBitSevenToCarry : Obligations.MemoryRotatesMoveBitSevenToCarry := by
  intro s
  refine ⟨fun e he => ⟨?_, ?_⟩, fun v r e hv => ⟨fun hr he => ?_, fun hr he => ?_⟩, fun hwrite => ?_⟩
  · exact (exec_rlcR .hlInd s).trans (State.modify_read_error (dst := .hlInd) he)
  · exact (exec_rlR .hlInd s).trans (State.modify_read_error (dst := .hlInd) he)
  · obtain rfl : r = v <<< 1 ||| bitByte (v.getLsbD 7) :=
      BitVec.eq_of_toNat_eq (hr.trans (by rw [shiftIn_toNat, bitSeven_toNat]))
    exact (exec_rlcR .hlInd s).trans (State.modify_write_error (dst := .hlInd) hv he)
  · obtain rfl : r = v <<< 1 ||| bitByte s.flags.c := BitVec.eq_of_toNat_eq (hr.trans (by rw [shiftIn_toNat]))
    exact (exec_rlR .hlInd s).trans (State.modify_write_error (dst := .hlInd) hv he)
  · obtain ⟨v, m, hv, -, hrlc, hrlcStored⟩ :=
      State.modify_hl_of_writable hwrite (fun v => v <<< 1 ||| bitByte (v.getLsbD 7)) afterRotate
    obtain ⟨v', m', hv', -, hrl, hrlStored⟩ :=
      State.modify_hl_of_writable hwrite (fun v => v <<< 1 ||| bitByte s.flags.c) afterRotate
    obtain rfl : v = v' := Except.ok.inj (hv.symm.trans hv')
    refine ⟨v, _, _, _, _, hv, ?_, shiftIn_toNat v s.flags.c, (exec_rlcR_eq .hlInd s).trans hrlc, hrlcStored, rfl, rfl,
      (exec_rlR_eq .hlInd s).trans hrl, hrlStored, rfl, rfl⟩
    rw [shiftIn_toNat, bitSeven_toNat]

/-! ## RL as a turn of nine bits -/

/-- The nine bits that RL turns: those of the operand, then Carry. -/
def ringBit (v : Byte) (c : Bool) (i : Nat) : Bool := if i < 8 then v.getLsbD i else c

theorem ringBit_shiftIn (v : Byte) (c : Bool) {i : Nat} (hi : i < 9) :
    ringBit (v <<< 1 ||| bitByte c) (v.getLsbD 7) i = ringBit v c ((i + 8) % 9) := by
  interval_cases i <;> simp [ringBit]

/-- `k` times RL turns the nine bits by `k` places, and changes nothing else but PC and what a rotate draws. -/
theorem execTimes_rlR (k : Nat) (s : State) (r : Reg8) :
    ∃ t, execTimes k (.rlR (.reg r)) s = .next t ∧
      (∀ i < 9, ringBit (t.reg r) t.flags.c i = ringBit (s.reg r) s.flags.c ((i + 8 * k) % 9)) ∧
      (∀ q, q ≠ r → t.reg q = s.reg q) ∧ t.pc = s.pc + BitVec.ofNat 16 (2 * k) ∧ s.SameBytes t := by
  induction k generalizing s with
  | zero =>
    refine ⟨s, rfl, fun i hi => ?_, fun _ _ => rfl, (add_zero s.pc).symm, fun _ => rfl⟩
    rw [Nat.mul_zero, Nat.add_zero, Nat.mod_eq_of_lt hi]
  | succ k ih =>
    obtain ⟨u, hrl, hureg, huother, huc, hupc, -, -, -, -, hubytes⟩ :=
      s.rotate_reg_effect r fun v => v <<< 1 ||| bitByte s.flags.c
    obtain ⟨t, hrun, htring, htother, htpc, htbytes⟩ := ih u
    refine ⟨t, ?_, fun i hi => ?_, fun q hq => (htother q hq).trans (huother q hq), ?_,
      fun addr => (htbytes addr).trans (hubytes addr)⟩
    · rw [execTimes, exec_rlR_eq, hrl]
      exact hrun
    · rw [htring i hi, hureg, huc, ringBit_shiftIn _ _ (Nat.mod_lt _ (by decide))]
      congr 1
      omega
    · rw [htpc, hupc, Nat.mul_succ, Nat.add_comm (2 * k), BitVec.ofNat_add, add_assoc]
      rfl

/-- Settles O40: nine places are a whole turn of the nine bits. -/
theorem nineRotatesThroughCarryRestore : Obligations.NineRotatesThroughCarryRestore := by
  intro s r
  obtain ⟨t, hrun, hring, hother, hpc, hbytes⟩ := execTimes_rlR 9 s r
  have hturn (i : Nat) (hi : i < 9) : ringBit (t.reg r) t.flags.c i = ringBit (s.reg r) s.flags.c i := by
    rw [hring i hi, Nat.add_mul_mod_self_right i 8 9, Nat.mod_eq_of_lt hi]
  have hreg : t.reg r = s.reg r := by
    refine BitVec.eq_of_getLsbD_eq fun i hi => ?_
    have hbit := hturn i (Nat.lt_succ_of_lt hi)
    rwa [ringBit, ringBit, if_pos hi, if_pos hi] at hbit
  refine ⟨t, hrun, fun q => ?_, hturn 8 (by decide), hpc, hbytes⟩
  by_cases hq : q = r
  · rw [hq, hreg]
  · exact hother q hq

/-! ## Bits -/

/-- Settles O41: bit 7 of H is clear exactly below 128. -/
theorem bitTestOfH : Obligations.BitTestOfH := by
  intro s
  have hzero : (!s.h.getLsbD 7) = decide (s.h.toNat < 128) := by
    rw [bitSeven_eq, ← decide_not, decide_eq_decide, Nat.not_le]
  rw [← hzero]
  exact exec_bit7H s

theorem bitMask_getLsbD (b : BitVec 3) (k : Nat) : (bitMask b).getLsbD k = (k == b.toNat) := by
  have hmask : bitMask b = BitVec.twoPow 8 b.toNat := (BitVec.twoPow_eq 8 b.toNat).symm
  rw [hmask, BitVec.getLsbD_twoPow, decide_eq_true b.isLt, Bool.true_and]
  exact decide_eq_decide.mpr eq_comm

theorem State.writeOperand_pc {s t : State} {dst : Operand8} {v : Byte} (h : s.writeOperand dst v = .ok t) :
    t.pc = s.pc := by
  rcases State.writeOperand_ok h with ⟨r, -, rfl⟩ | ⟨-, hw⟩
  · exact s.setReg_pc r v
  · obtain ⟨m, rfl⟩ := State.memWrite_changes_mem hw
    rfl

/-- An operand that can be read and written back. -/
theorem State.operand_of_modifiable {s : State} {dst : Operand8} (h : s.OperandModifiable dst) :
    (∃ v, s.readOperand dst = .ok v) ∧ ∀ x, ∃ t, s.writeOperand dst x = .ok t := by
  cases dst with
  | reg r => exact ⟨⟨_, rfl⟩, fun x => ⟨_, rfl⟩⟩
  | hlInd => exact ⟨(s.memRead_ok_iff _).mpr (State.readable_of_writable h), fun x => s.memWrite_of_writable _ x h⟩

/-- A read-modify-write of an operand that then advances PC. -/
theorem State.modify_advance_eq {s t : State} {dst : Operand8} {f : Byte → Byte} {v : Byte} (n : Word)
    (hv : s.readOperand dst = .ok v) (ht : s.writeOperand dst (f v) = .ok t) :
    s.modify dst f (fun _ _ u => u.advance n) = .next { t with pc := s.pc + n } := by
  rw [State.modify_eq hv ht, State.advance, State.writeOperand_pc ht]

/-- Settles O42: each is a read-modify-write of its operand with a one-bit mask. -/
theorem bitResetAndSetOneBit : Obligations.BitResetAndSetOneBit := by
  intro s b dst
  refine ⟨fun b2 => ⟨classifyPrefixed_res b dst, classifyPrefixed_set b dst⟩, fun e he => ⟨?_, ?_⟩,
    fun v e hv => ⟨fun he => ?_, fun he => ?_⟩, fun hmod => ?_⟩
  · exact (exec_resBR b dst s).trans (State.modify_read_error he)
  · exact (exec_setBR b dst s).trans (State.modify_read_error he)
  · exact (exec_resBR b dst s).trans (State.modify_write_error hv he)
  · exact (exec_setBR b dst s).trans (State.modify_write_error hv he)
  · obtain ⟨⟨v, hv⟩, hwrite⟩ := State.operand_of_modifiable hmod
    obtain ⟨t, ht⟩ := hwrite (v &&& ~~~ bitMask b)
    obtain ⟨u, hu⟩ := hwrite (v ||| bitMask b)
    refine ⟨v, _, _, t, u, hv, fun k hk => ?_, fun k _ => ?_, ht, ?_, hu, ?_⟩
    · rw [BitVec.getLsbD_and, BitVec.getLsbD_not, bitMask_getLsbD b k, decide_eq_true hk, Bool.true_and]
      rfl
    · rw [BitVec.getLsbD_or, bitMask_getLsbD b k]
    · exact (exec_resBR b dst s).trans (State.modify_advance_eq 2 hv ht)
    · exact (exec_setBR b dst s).trans (State.modify_advance_eq 2 hv hu)

end Sys2Proof.Machine

/-! PROOFS. The host's side: injection and Run (spec/70_reset_and_hazards.md R296 to R301, spec/60_exceptions.md R266, R270). -/

namespace Sys2Proof.Machine

/-! ## Injection -/

theorem overlay_length (boot cart : List Byte) : (overlay boot cart).length = max boot.length cart.length := by
  rw [overlay, List.length_append, List.length_drop]
  omega

/-- The byte of the overlay at an address: the boot image's, else the cartridge's, else the fill. -/
theorem overlay_getD (boot cart : List Byte) (fill : Byte) (addr : Nat) :
    (overlay boot cart).getD addr fill =
      if h : addr < boot.length then boot[addr] else if h : addr < cart.length then cart[addr] else fill := by
  rw [overlay, List.getD_eq_getElem?_getD]
  split
  · next h => rw [List.getElem?_append_left h, List.getElem?_eq_getElem h, Option.getD_some]
  · next h =>
    have hidx : boot.length + (addr - boot.length) = addr := by omega
    rw [List.getElem?_append_right (Nat.not_lt.mp h), List.getElem?_drop, hidx]
    split
    · next hcart => rw [List.getElem?_eq_getElem hcart, Option.getD_some]
    · next hcart => rw [List.getElem?_eq_none (Nat.not_lt.mp hcart), Option.getD_none]

theorem State.inject_running {s : State} (h : s.run = .running) (boot cart : Option (List Byte)) :
    s.inject boot cart = .refused .hostDuringRun := by
  simp only [State.inject, h]

theorem State.inject_too_long {s : State} (h : s.run = .stopped) {boot cart : Option (List Byte)}
    (hlen : Config.memSize < max (boot.getD []).length (cart.getD []).length) :
    s.inject boot cart = .fault (.configurationError Config.memSize s.pc) := by
  simp only [State.inject, h, if_pos hlen]

theorem State.inject_eq {s : State} (h : s.run = .stopped) {boot cart : Option (List Byte)}
    (hlen : max (boot.getD []).length (cart.getD []).length ≤ Config.memSize) :
    s.inject boot cart = .next { s with
      mem := Memory.ofImage s.par.sentinel 0 (overlay (boot.getD []) (cart.getD [])), pc := 0x0000, prevPc := none } := by
  simp only [State.inject, h, if_neg (Nat.not_lt.mpr hlen)]

/-- Settles O55: the injected memory is that of the overlay, which reads byte by byte. -/
theorem injectionOverlaysBootOnCartridge : Obligations.InjectionOverlaysBootOnCartridge := by
  intro s boot cart
  refine ⟨fun h hlen => State.inject_too_long h hlen, fun h => State.inject_running h boot cart, fun h hlen => ?_⟩
  have hfits : (overlay (boot.getD []) (cart.getD [])).length ≤ Config.memSize := by rw [overlay_length]; exact hlen
  refine ⟨_, State.inject_eq h hlen, rfl, Memory.wf_ofImage _ _ hfits, fun addr => ?_⟩
  rw [← overlay_getD]
  exact (Memory.read_ofImage _ 0 addr _).trans (if_pos (Nat.zero_le addr))

/-! ## The loop -/

theorem runLoop_zero (s : State) : runLoop 0 s = (s, .success) := rfl

theorem runLoop_succ_next {k : Nat} {s t : State} (h : step s = .next t) : runLoop (k + 1) s = runLoop k t := by
  rw [runLoop, h]

theorem runLoop_succ_fault {k : Nat} {s : State} {e : Fault} (h : step s = .fault e) :
    runLoop (k + 1) s = (s.afterFatal e, .fatal e) := by
  rw [runLoop, h]

theorem runLoop_succ_refused {k : Nat} {s : State} {r : Refusal} (h : step s = .refused r) :
    runLoop (k + 1) s = (s, .refused r) := by
  rw [runLoop, h]

/-- A loop of `a + b` steps is one of `a` steps, and one of `b` after it where the first succeeds. -/
theorem runLoop_add (a b : Nat) (s : State) :
    runLoop (a + b) s = if (runLoop a s).2 = .success then runLoop b (runLoop a s).1 else runLoop a s := by
  induction a generalizing s with
  | zero => rw [Nat.zero_add, runLoop_zero, if_pos rfl]
  | succ a ih =>
    rw [Nat.succ_add]
    cases hstep : step s with
    | next t => rw [runLoop_succ_next hstep, runLoop_succ_next hstep, ih]
    | fault e => rw [runLoop_succ_fault hstep, runLoop_succ_fault hstep, if_neg (by simp)]
    | refused r => rw [runLoop_succ_refused hstep, runLoop_succ_refused hstep, if_neg (by simp)]

/-- Settles O58, by the composition of the loop. -/
theorem safeRunsSplit : Obligations.SafeRunsSplit := by
  intro a b s
  rw [State.SafeFor, State.SafeFor, State.SafeFor, runLoop_add]
  split
  · next hfirst => rw [and_iff_right hfirst]
  · next hfirst => exact ⟨fun h => absurd h hfirst, fun h => absurd h.1 hfirst⟩

/-- The steps of a loop keep `run`, and latch no error, while they succeed. -/
theorem runLoop_success_keeps {k : Nat} {s t : State} (h : runLoop k s = (t, .success)) :
    t.run = s.run ∧ (s.fault = none → t.fault = none) := by
  induction k generalizing s with
  | zero =>
    cases h
    exact ⟨rfl, id⟩
  | succ k ih =>
    cases hstep : step s with
    | next u =>
      rw [runLoop_succ_next hstep] at h
      obtain ⟨hrun, hfault⟩ := ih h
      exact ⟨hrun.trans (step_run hstep), fun _ => hfault (step_fault hstep)⟩
    | fault e =>
      rw [runLoop_succ_fault hstep] at h
      cases h
    | refused r =>
      rw [runLoop_succ_refused hstep] at h
      cases h

/-! ## A fatal error -/

/-- A step that ends in an error leaves it latched: the one it raised, or the one that was. -/
theorem State.afterFatal_fault {s : State} {e : Fault} (h : step s = .fault e) : (s.afterFatal e).fault = some e := by
  rw [State.afterFatal]
  cases hfault : s.fault with
  | some e' =>
    rw [step_of_latched hfault] at h
    cases h
    exact hfault
  | none => cases s.fetchDecode <;> rfl

theorem runLoop_fatal_latches {k : Nat} {s t : State} {e : Fault} (h : runLoop k s = (t, .fatal e)) :
    t.fault = some e := by
  induction k generalizing s with
  | zero => cases h
  | succ k ih =>
    cases hstep : step s with
    | next u =>
      rw [runLoop_succ_next hstep] at h
      exact ih h
    | fault e' =>
      rw [runLoop_succ_fault hstep] at h
      cases h
      exact State.afterFatal_fault hstep
    | refused r =>
      rw [runLoop_succ_refused hstep] at h
      cases h

/-! ## Run -/

theorem State.runCall_of_fault {s : State} {e : Fault} (h : s.fault = some e) (k : Nat) : s.runCall k = (s, .fatal e) := by
  simp only [State.runCall, h]

theorem State.runCall_running {s : State} (hfault : s.fault = none) (hrun : s.run = .running) (k : Nat) :
    s.runCall k = (s, .refused .hostDuringRun) := by
  simp only [State.runCall, hfault, hrun]

/-- The state with another `run`. -/
def State.withRun (s : State) (r : RunState) : State := { s with run := r }

theorem State.withRun_self {s : State} {r : RunState} (h : s.run = r) : s.withRun r = s := by
  rw [State.withRun, ← h]

/-- A Run call that may run answers what its loop ends in, with `run` stopped. -/
theorem State.runCall_of_loop {s t : State} {k : Nat} {r : RunResult} (hfault : s.fault = none) (hrun : s.run = .stopped)
    (hloop : runLoop k (s.withRun .running) = (t, r)) : s.runCall k = (t.withRun .stopped, r) := by
  have hcall : s.runCall k =
      ((runLoop k (s.withRun .running)).1.withRun .stopped, (runLoop k (s.withRun .running)).2) := by
    unfold State.runCall
    split
    · next hsome => cases hfault.symm.trans hsome
    · split
      · next hrunning => cases hrun.symm.trans hrunning
      · rfl
  rw [hcall, hloop]

/-- A Run call that is neither on a faulted session nor during a Run runs the loop. -/
theorem State.runCall_cases (s : State) (k : Nat) :
    (∃ e, s.fault = some e ∧ s.runCall k = (s, .fatal e)) ∨ s.runCall k = (s, .refused .hostDuringRun) ∨
      (s.fault = none ∧ s.run = .stopped) := by
  cases hfault : s.fault with
  | some e => exact .inl ⟨e, rfl, State.runCall_of_fault hfault k⟩
  | none =>
    cases hrun : s.run with
    | running => exact .inr (.inl (State.runCall_running hfault hrun k))
    | stopped => exact .inr (.inr ⟨rfl, rfl⟩)

/-- Settles O56: a loop of no steps changes nothing, and `run` is stopped again. -/
theorem runZeroChangesNothing : Obligations.RunZeroChangesNothing := by
  intro s hrun
  cases hfault : s.fault with
  | some e =>
    rw [State.runCall_of_fault hfault]
    exact ⟨rfl, nofun⟩
  | none =>
    have hstopped : (s.withRun .running).withRun .stopped = s := s.withRun_self hrun
    rw [State.runCall_of_loop hfault hrun (runLoop_zero _), hstopped]
    exact ⟨rfl, fun _ => rfl⟩

/-- Settles O57: the second call goes on where the first loop stopped, with `run` set as it was then. -/
theorem runsCompose : Obligations.RunsCompose := by
  intro a b s t h
  rcases s.runCall_cases a with ⟨e, -, hfatal⟩ | hrefused | ⟨hfault, hrun⟩
  · rw [hfatal] at h
    cases h
  · rw [hrefused] at h
    cases h
  · cases hfirst : runLoop a (s.withRun .running) with
    | mk u r =>
      rw [State.runCall_of_loop hfault hrun hfirst] at h
      cases h
      obtain ⟨hurun, hufault⟩ := runLoop_success_keeps hfirst
      have hresumed : (u.withRun .stopped).withRun .running = u := u.withRun_self hurun
      cases hsecond : runLoop b u with
      | mk w r =>
        have hboth : runLoop (a + b) (s.withRun .running) = (w, r) := by rw [runLoop_add, hfirst, if_pos rfl, hsecond]
        rw [State.runCall_of_loop hfault hrun hboth,
          State.runCall_of_loop (s := u.withRun .stopped) (hufault hfault) rfl (by rw [hresumed, hsecond])]

/-- Settles O59: the loop ends with the error latched, and a Run on a faulted session answers it at once. -/
theorem fatalErrorsAreSticky : Obligations.FatalErrorsAreSticky := by
  refine ⟨fun k s t e h => ?_, fun s e => step_of_latched⟩
  rcases s.runCall_cases k with ⟨e', hfault, hfatal⟩ | hrefused | ⟨hfault, hrun⟩
  · rw [hfatal] at h
    cases h
    exact ⟨hfault, fun hnone => by simp [hfault] at hnone, State.runCall_of_fault hfault⟩
  · rw [hrefused] at h
    cases h
  · cases hloop : runLoop k (s.withRun .running) with
    | mk u r =>
      rw [State.runCall_of_loop hfault hrun hloop] at h
      cases h
      have hlatched : u.fault = some e := runLoop_fatal_latches hloop
      exact ⟨hlatched, fun _ => rfl, State.runCall_of_fault (s := u.withRun .stopped) hlatched⟩

end Sys2Proof.Machine
